-- ==== Sys2Proof/Word.lean ====
section
/-! DEFINITION. The widths of the block's data (spec/00_scope.md R10, spec/10_state.md R21, R34, R35): bytes, the
32-bit registers, the 7-bit register selector, and a bit vector whose width is the parameter `P` or a frame of bytes. -/

namespace Sys2Proof

/-- One byte on the event interface (R69: the unit of transfer is one byte). -/
abbrev Byte := BitVec 8

/-- A 32-bit register: `increment` (R21), `value` and `click_count` (R34). -/
abbrev Word := BitVec 32

/-- A 7-bit bus address or register selector (R35 `latched_address`, R91 `a`). -/
abbrev Addr := BitVec 7

/-- A bit vector of the parameter width `P`, bit `k` at list index `k` (R28, R30: one bit per pin). -/
abbrev Bits := List Bool

/-- One delivered operation as bytes. The first byte stands first (assumption log 2). -/
abbrev Frame := List Byte

end Sys2Proof
end

