-- ==== Sys2Proof/Config.lean ====
section
/-! DEFINITION. What is fixed for one machine: the parameters of spec/00_scope.md R8 and the host's of
spec/43_host_controller.md R201, the constants the spec fixes, and the free values (constants without a body) for what
the spec leaves open about the host. The parameters are a field of `State` (assumption log 3), so a statement about
every state is a statement about every instance. -/

namespace Sys2Proof

/-- A direction `+1` or `−1` (R8: `DIR_OF_LEVEL` has values in {+1, −1}). -/
inductive Turn where
  | plus
  | minus
  deriving DecidableEq, Repr

/-- The implementation parameters of R8, each under its own name, and the host's level that R201 leaves as a
parameter (`PARTIAL`). `DIR_OF_LEVEL(0) = −DIR_OF_LEVEL(1)` (R8), so one of the two is stored.
`LED_SRC`, `LED_SNK` and `DWELL` are tables: plain data. `T_TICK` is used by no rule (R8) and is not held. -/
structure Config where
  /-- `N`, the number of LEDs. -/
  nLeds : Nat
  /-- `P`, the number of drive phases, which is the number of pins. -/
  nPins : Nat
  /-- `C`, the number of bit-planes kept. -/
  nPlanes : Nat
  /-- `LED_SRC(pos)` at index `pos`. -/
  ledSrc : List Nat
  /-- `LED_SNK(pos)` at index `pos`. -/
  ledSnk : List Nat
  /-- `DWELL(ph, b)` at index `ph`, then `b`. -/
  dwell : List (List Nat)
  /-- `LOCKOUT_TICKS`. -/
  lockoutTicks : Nat
  /-- `DIR_OF_LEVEL(1)`. -/
  dirOfHigh : Turn
  /-- `CLICK_W`. -/
  clickWidth : Nat
  /-- `BUS_BASE`. -/
  busBase : Addr
  /-- `BUS_MASK`. -/
  busMask : Addr
  /-- `PARTIAL` of the host (R201: "approximate in the source", a parameter, default 127). -/
  partialLevel : Byte
  deriving DecidableEq, Repr

/-- `BUF_CAP`: the transaction buffer holds 20 bytes (R8, fixed). -/
abbrev Config.bufCap : Nat := 20

/-- `SENTINEL`: the byte returned on over-read (R8, fixed). -/
abbrev Config.sentinel : Byte := 0xFF

/-- `FRAME_THRESHOLD` of the host (R201, R205). -/
abbrev Config.frameThreshold : Nat := 100000

/-- `TAIL` of the host (R201). -/
abbrev Config.tail : Nat := 2

/-- `FULL` of the host (R201). -/
abbrev Config.full : Byte := 0xFF

/-- `N_ANIM` of the host (R201). -/
abbrev Config.nAnim : Nat := 3

/-- Free value: the order of the host's three sub-steps in one `CTRL_TICK`, one of the six. R203: "in an order the source
does not fix beyond the sentence quoted in rule R200". DESIGN CHOICE (assumption log 11): whether that sentence ("drains
the Decoder, advances animation frames, dispatches accepted Bus Register commands, and paints the Display") binds the
order is left loose; it is taken as a list of tasks that binds none. Argument: the draw counter of `State`. -/
opaque Config.hostOrder : Nat → Fin 6

/-- Free value: how often the host toggles its mode when one drain returned more than one click (R204: "not in the
source"). Arguments: the draw counter, the count (assumption log 12). -/
opaque Config.clickToggles : Nat → Nat → Nat

/-- Free value: whether the host takes a command it may have seen before (R209, spec/91_not_in_source.md N11: how it
tells a new command from an old one is not in the source). Argument: the draw counter (assumption log 13). -/
opaque Config.staleAccepted : Nat → Bool

/-- Free value: `DIM`, the host's level of the sweep animation (R201: "no value in the source, OPEN"; assumption
log 16). -/
opaque Config.dimLevel : Byte

/-- Free value: which LEDs a frame of the sweep animation paints at the dim level (R210: an uninterpreted function).
Arguments: the draw counter, the LED (assumption log 15). -/
opaque Config.sweepOnPath : Nat → Nat → Bool

/-- Free value: what the sweep animation's "re-advance" of the focus after a full double sweep adds to it (R210: not
in the source). Argument: the draw counter (assumption log 15). -/
opaque Config.sweepReadvance : Nat → Nat

end Sys2Proof
end

