-- ==== Sys2Proof/Machine/Params.lean ====
section
/-! DEFINITION. Reading the parameter tables, the default LED map and dwell table, and the reference instance of
spec/00_scope.md R9. -/

namespace Sys2Proof.Machine

/-- `LED_SRC(pos)` (R8). -/
def srcOf (c : Config) (pos : Nat) : Nat := c.ledSrc.getD pos 0

/-- `LED_SNK(pos)` (R8). -/
def snkOf (c : Config) (pos : Nat) : Nat := c.ledSnk.getD pos 0

/-- `DWELL(ph, b)` (R8). A slot outside the table, which no well-formed instance reaches, reads as the least dwell. -/
def dwellOf (c : Config) (ph b : Nat) : Nat := (c.dwell.getD ph []).getD b 1

/-- `DIR_OF_LEVEL(1)` or `DIR_OF_LEVEL(0) = −DIR_OF_LEVEL(1)` (R8). -/
def dirOfLevel (c : Config) (level : Bool) : Turn :=
  match level, c.dirOfHigh with
  | true, t => t
  | false, .plus => .minus
  | false, .minus => .plus

/-- The default source pin of an LED: `pos div (P−1)` (R33). -/
def defaultSrc (p pos : Nat) : Nat := pos / (p - 1)

/-- The default sink pin: the sinks of a source in ascending order, skipping the source pin (R33). -/
def defaultSnk (p pos : Nat) : Nat :=
  if pos % (p - 1) < defaultSrc p pos then pos % (p - 1) else pos % (p - 1) + 1

/-- The default dwell of a slot: `2^b` ticks in every phase (R8). -/
def defaultDwell (p c : Nat) : List (List Nat) :=
  List.replicate p ((List.range c).map (fun b => 2 ^ b))

/-- An instance with the default LED map and dwell, and the default or fixed value of every other parameter but the
ones given (R8, R201). -/
def defaultConfig (n p c lockout : Nat) (base mask : Addr) : Config where
  nLeds := n
  nPins := p
  nPlanes := c
  ledSrc := (List.range n).map (defaultSrc p)
  ledSnk := (List.range n).map (defaultSnk p)
  dwell := defaultDwell p c
  lockoutTicks := lockout
  dirOfHigh := .plus
  clickWidth := 8
  busBase := base
  busMask := mask
  partialLevel := 127

/-- The reference instance of R9: `N=20, P=5, C=4, DWELL(ph,b)=2^b, LOCKOUT_TICKS=3, CLICK_W=8, DIR_OF_LEVEL(1)=+1,
BUS_BASE=0x10, BUS_MASK=0x07`, with the default LED map. -/
def referenceConfig : Config := defaultConfig 20 5 4 3 0x10 0x07

end Sys2Proof.Machine
end

