-- ==== Sys2Proof/Syntax.lean ====
section
/-! DEFINITION. The operations of the block: one constructor per row of spec/opcode_table.json (spec/30_encoding.md
R90 to R94, R107), with the agent that issues each (spec/00_scope.md R7) and the context it runs in
(spec/20_memory.md R75). -/

namespace Sys2Proof

/-- Direction of a bus transaction (R35, R91): `read` means the master reads from this device. -/
inductive Direction where
  | read
  | write
  deriving DecidableEq, Repr

/-- The 22 rows of the operation table. `rdOther` and `wrOther` carry the register offset that selects the catch-all
row (R104); every other register access has its offset fixed by its row. -/
inductive Instr where
  /-- `ROT_EDGE(level)` (R93, R122); `true` is companion level 1. -/
  | rotEdge (level : Bool)
  /-- `PRESS_EDGE()` (R123). -/
  | pressEdge
  /-- `DEC_TICK()` (R124). -/
  | decTick
  /-- `DRAIN_INCREMENT()` (R125). -/
  | drainIncrement
  /-- `DRAIN_CLICKS()` (R126). -/
  | drainClicks
  /-- `SET_LED(pos, intensity)` (R94: `pos` an integer, R141, R142). -/
  | setLed (pos : Int) (intensity : Byte)
  /-- `DISP_TICK()` (R143). -/
  | dispTick
  /-- `ADDR_MATCH(a, dir)` (R171). -/
  | addrMatch (a : Addr) (dir : Direction)
  /-- `BYTE_READY_RD()` (R174). -/
  | byteReadyRd
  /-- `BYTE_READY_WR(b)` (R176). -/
  | byteReadyWr (b : Byte)
  /-- `STOP()` (R179). -/
  | stop
  /-- `BUS_ERROR()` (R180). -/
  | busError
  /-- `GET_COMMAND()` (R182). -/
  | getCommand
  /-- Register access `RD_VALUE` (R172). -/
  | rdValue
  /-- Register access `RD_CLICK` (R173). -/
  | rdClick
  /-- Register access `RD_OTHER` at an offset other than 0 and 1 (R175). -/
  | rdOther (off : Addr)
  /-- Register access `WR_VALUE` (R177). -/
  | wrValue
  /-- Register access `WR_CLICK` (R178). -/
  | wrClick
  /-- Register access `WR_ILLUM_TYPE` (R183). -/
  | wrIllumType
  /-- Register access `WR_ILLUM_DATA` (R184). -/
  | wrIllumData
  /-- Register access `WR_OTHER` at an offset other than 0, 1, 3 and 4 (R185). -/
  | wrOther (off : Addr)
  /-- `CTRL_TICK()`, the host's tick (R203); surrounding software, not hardware (R2). -/
  | ctrlTick
  deriving DecidableEq, Repr

/-- The five formats of R90, in which the block's own operations come, and `host`, the format that R200 gives the host's
`CTRL_TICK`. DESIGN CHOICE (assumption log 26): R90 lists no `HOST`, and spec/opcode_table.json files the row under
`TICK`, which R92 says holds `DEC_TICK` and `DISP_TICK`; the numbered rule R200 is followed. -/
inductive Format where
  | edge
  | busev
  | tick
  | call
  | busreg
  | host
  deriving DecidableEq, Repr

/-- The format of each row (R90 to R94, spec/opcode_table.json "format"); that of `CTRL_TICK` is R200's (assumption
log 26). -/
def Instr.format : Instr → Format
  | .rotEdge _ | .pressEdge => .edge
  | .decTick | .dispTick => .tick
  | .drainIncrement | .drainClicks | .setLed _ _ | .getCommand => .call
  | .addrMatch _ _ | .byteReadyRd | .byteReadyWr _ | .stop | .busError => .busev
  | .rdValue | .rdClick | .rdOther _ | .wrValue | .wrClick | .wrIllumType | .wrIllumData | .wrOther _ => .busreg
  | .ctrlTick => .host

/-- The four agents of R7. -/
inductive Agent where
  | edge
  | bus
  | sched
  | host
  deriving DecidableEq, Repr

/-- "Each operation belongs to exactly one" agent (R7). A register access is performed inside a BUS operation (R90);
`CTRL_TICK` is the host's (R200). -/
def Instr.agent : Instr → Agent
  | .rotEdge _ | .pressEdge => .edge
  | .decTick | .dispTick => .sched
  | .drainIncrement | .drainClicks | .setLed _ _ | .getCommand | .ctrlTick => .host
  | .addrMatch _ _ | .byteReadyRd | .byteReadyWr _ | .stop | .busError => .bus
  | .rdValue | .rdClick | .rdOther _ | .wrValue | .wrClick | .wrIllumType | .wrIllumData | .wrOther _ => .bus

/-- The two execution contexts of R75 and R241. -/
inductive Context where
  | interrupt
  | poll
  deriving DecidableEq, Repr

/-- "Interrupt context: EDGE and BUS operations. Poll context: SCHED and HOST operations." (R75) -/
def Agent.context : Agent → Context
  | .edge | .bus => .interrupt
  | .sched | .host => .poll

end Sys2Proof
end

