-- ==== Sys2Proof/Machine/Operands.lean ====
section
/-! DEFINITION. Operand forms: bit vectors of width `P`, the intensity truncation, the byte order of the bus registers,
the register selector and the register widths (spec/30_encoding.md R97 to R102, spec/20_memory.md R62). -/

namespace Sys2Proof.Machine

/-- A direction as a 32-bit two's complement value. -/
def turnWord : Turn → Word
  | .plus => 1
  | .minus => -1

/-- A direction as an integer. -/
def turnInt : Turn → Int
  | .plus => 1
  | .minus => -1

/-- `P` bits, all 0. -/
def zeroBits (p : Nat) : Bits := List.replicate p false

/-- `onehot_P(k)` (R10): only bit `k` set. -/
def onehot (p k : Nat) : Bits := (List.range p).map (fun i => i == k)

/-- Bitwise OR on `P` bits (R10). -/
def orBits (p : Nat) (x y : Bits) : Bits := (List.range p).map (fun i => x.getD i false || y.getD i false)

/-- Bit `k` of `dirbits[ph][b]` (R28). -/
def tableBit (t : List (List Bits)) (ph b k : Nat) : Bool := ((t.getD ph []).getD b []).getD k false

/-- The entry `dirbits[ph][b]` (R28). -/
def tableEntry (t : List (List Bits)) (ph b : Nat) : Bits := (t.getD ph []).getD b []

/-- "truncated to its top C bits": `intensity >> (8 − C)` (R101). -/
def topBits (c : Nat) (v : Byte) : Byte := v >>> (8 - c)

/-- For each plane `b`, bit `snk` of `dirbits[src][b]` becomes bit `b` of the truncated intensity (R102, R141). -/
def writePlanes (t : List (List Bits)) (src snk : Nat) (top : Byte) : List (List Bits) :=
  t.modify src (fun row => row.mapIdx (fun b bits => bits.set snk (top.getLsbD b)))

/-- Byte `i` of `be32(w)` (R11): byte 0 is bits 31:24. -/
def be32Byte (w : Word) (i : Nat) : Byte := w.extractLsb' (24 - 8 * i) 8

/-- `be32(w)` (R11, R62): the most significant byte first. -/
def be32 (w : Word) : List Byte := [be32Byte w 0, be32Byte w 1, be32Byte w 2, be32Byte w 3]

/-- `from_be(b0, b1, b2, b3)` (R11, R62): the first byte becomes bits 31:24. -/
def fromBe (b0 b1 b2 b3 : Byte) : Word := b0 ++ b1 ++ b2 ++ b3

/-- `buffer[0..3] <- be32(w)` (R172). -/
def storeBe32 (buf : Vector Byte 20) (w : Word) : Vector Byte 20 :=
  (((buf.setIfInBounds 0 (be32Byte w 0)).setIfInBounds 1 (be32Byte w 1)).setIfInBounds 2 (be32Byte w 2)).setIfInBounds
    3 (be32Byte w 3)

/-- `from_be(buffer[0], buffer[1], buffer[2], buffer[3])` (R177). -/
def loadBe32 (buf : Vector Byte 20) : Word := fromBe buf[0] buf[1] buf[2] buf[3]

/-- The bytes of `buffer` below `size`, then zeros: "unsent bytes treated as zero" (R184). -/
def zeroPadded (buf : Vector Byte 20) (size : Nat) : Vector Byte 20 :=
  buf.mapIdx (fun i b => if i < size then b else 0)

/-- `latched_address = a AND BUS_MASK` (R97). -/
def registerOffset (c : Config) (a : Addr) : Addr := a &&& c.busMask

/-- Whether the device answers a bus address: `(a AND NOT BUS_MASK) = BUS_BASE` (R73, R97). -/
def addressMatched (c : Config) (a : Addr) : Bool := a &&& ~~~c.busMask == c.busBase

/-- `WIDTH(offset)` in bytes (R170): defined for the fixed-width writable registers only. -/
def registerWidth (off : Addr) : Option Nat :=
  match off.toNat with
  | 0 => some 4
  | 1 => some 4
  | 3 => some 1
  | _ => none

/-- `x mod m` on an integer, as an index (R10: the residue in `[0, m)`, also for negative `x`). -/
def wrapIndex (x : Int) (m : Nat) : Nat := (x % (m : Int)).toNat

end Sys2Proof.Machine
end

