-- ==== Sys2Proof/Machine/State.lean ====
section
/-! DEFINITION. The state of the block (spec/10_state.md), the host's (spec/43_host_controller.md R202), and what the
model adds: the delivered operations, the interleavings of `GET_COMMAND`, the draw counter and the trace. Also the
reasons a step can stop, and the state after reset (spec/70_reset_and_hazards.md R260). -/

namespace Sys2Proof.Machine

/-- `DecoderState` (R21 to R23). `clicks` and `lockout` are counts: their widths are parameters (R8), kept as the
bounds `clicks < 2^CLICK_W` and `lockout ≤ LOCKOUT_TICKS` of the invariant. -/
structure Decoder where
  /-- "pending net rotation", 32-bit two's complement (R21). -/
  increment : Word
  /-- "accumulated press count", below `2^CLICK_W` (R22). -/
  clicks : Nat
  /-- "ticks remaining before next edge is accepted" (R23). -/
  lockout : Nat
  deriving DecidableEq, Repr

/-- `DisplayState` with the pin registers (R26 to R30). -/
structure Display where
  /-- Per-LED brightness, 8 bits each (R26). -/
  intensity : List Byte
  /-- The top `C` bits of each intensity (R27). -/
  bitplane : List Byte
  /-- The direction-bit tables: phase, then bit-plane, then pin (R28). -/
  dirbits : List (List Bits)
  /-- The phase of the current slot (R29). -/
  scanPhase : Nat
  /-- The bit-plane of the current slot (R29). -/
  scanCycle : Nat
  /-- The ticks the current slot has been current (R29). -/
  dwellCounter : Nat
  /-- Pin register `OUT`: the level of a pin that is an output (R30). -/
  out : Bits
  /-- Pin register `DIR`: which pins are outputs (R30). -/
  dir : Bits
  deriving DecidableEq, Repr

/-- `RegisterFile` (R34). -/
structure RegisterFile where
  /-- Offset 0, 32 bits, two's complement, the "accumulator". -/
  value : Word
  /-- Offset 1, 32 bits, unsigned. -/
  clickCount : Word
  /-- Offset 3, 8 bits. -/
  illumType : Byte
  /-- Offset 4, 20 bytes. -/
  illumData : Vector Byte 20
  deriving DecidableEq, Repr

/-- The transaction scratch (R35). -/
structure Scratch where
  latchedAddress : Addr
  direction : Direction
  buffer : Vector Byte 20
  /-- The next byte of `buffer` to send, 0 to 20. -/
  offset : Nat
  /-- The number of valid bytes in `buffer`, 0 to 20. -/
  size : Nat
  deriving DecidableEq, Repr

/-- The host's mode (R202). -/
inductive Mode where
  | normal
  | adjust
  deriving DecidableEq, Repr

/-- The Controller's state (R202): surrounding software, needed for `CTRL_TICK` (R203). Widths are not in the source;
`speed` is unbounded (R206). -/
structure HostState where
  mode : Mode
  animationType : Nat
  speed : Int
  focus : Nat
  /-- The frame-pacing counter. -/
  counter : Nat
  /-- The sweep counter of animation type 2, in `[0, 2N]` (R202). -/
  sweep : Nat
  /-- Increments injected by bus commands in NORMAL mode and not yet folded into `speed` (R206, assumption log 14). -/
  injected : Int
  /-- The command the host read last, by which it knows that another one is new (assumption log 13). -/
  lastCommand : Option (Addr × List Byte)
  deriving DecidableEq, Repr

/-- An interrupt-context operation: what can preempt a poll-context one (R7, R75). -/
inductive Interrupt where
  | rotEdge (level : Bool)
  | pressEdge
  | addrMatch (a : Addr) (dir : Direction)
  | byteReadyRd
  | byteReadyWr (b : Byte)
  | stop
  | busError
  deriving DecidableEq, Repr

/-- What happens while one `GET_COMMAND` is under way: an interrupt, or one of the call's own single reads (R79, R182). -/
inductive RaceItem where
  | interrupt (e : Interrupt)
  | readAddr
  | readSize
  | readByte (i : Nat)
  deriving DecidableEq, Repr

/-- The level of a pin (R103): high-impedance, driven high, driven low. -/
inductive PinLevel where
  | H
  | L
  | Z
  deriving DecidableEq, Repr

/-- The four named conditions (R230). They have no numeric code and none of them transfers control. -/
inductive Condition where
  | busError
  | overread
  | overwrite
  | malformedCommand
  deriving DecidableEq, Repr

/-- What the block shows outside: results to the agents (R91, R94), successive pin states (R145), the named conditions
(R230). There is no negative acknowledge: "there is no NAK path" (R95). -/
inductive Output where
  /-- The result of `DRAIN_INCREMENT`. -/
  | increment (v : Word)
  /-- The result of `DRAIN_CLICKS`. -/
  | clicks (v : Nat)
  /-- The result of `BYTE_READY_RD`: the byte to send to the master. -/
  | data (b : Byte)
  /-- The result of `BYTE_READY_WR`. -/
  | ack
  /-- The address phase is acknowledged (R95). -/
  | addressAck
  /-- The result of `GET_COMMAND`. -/
  | command (addr : Addr) (bytes : List Byte)
  /-- A pin state the environment sees, pin 0 first. -/
  | pins (levels : List PinLevel)
  /-- A condition that occurred. -/
  | condition (c : Condition)
  deriving DecidableEq, Repr

/-- The whole state: the parameters (constant), the three groups of the block, the error flag, the host, and the
model's own fields. -/
structure State where
  /-- The parameters of R8; no operation changes them (assumption log 3). -/
  cfg : Config
  /-- `DecoderState` (R21 to R23). -/
  dec : Decoder
  /-- `DisplayState` and the pin registers (R26 to R30). -/
  disp : Display
  /-- `RegisterFile` (R34). -/
  regs : RegisterFile
  /-- The transaction scratch (R35). -/
  scr : Scratch
  /-- `bus_error` (R36). -/
  busError : Bool
  /-- The Controller (R202), not hardware. -/
  host : HostState
  /-- The model's own: the operations delivered and not yet performed, in the total order of R77 (assumption log 1). -/
  inbox : List Frame
  /-- The model's own: for each coming `GET_COMMAND`, what is ordered between its reads (R79, assumption log 5). -/
  races : List (List RaceItem)
  /-- The model's own: the counter the free values are applied to (assumption log 11). -/
  draws : Nat
  /-- The model's own: everything shown outside so far, oldest first; no operation reads it (assumption log 6). -/
  trace : List Output
  deriving DecidableEq, Repr

/-- Nothing of this hardware stops the machine: "no condition saves state, changes a mode or transfers control" (R230)
and every failure is "local, silent, and self-recovering". So there is no fault (safe: nothing is hidden). -/
inductive Fault where
  deriving DecidableEq, Repr

/-- Why a step has no meaning. -/
inductive Refusal where
  /-- Raised by `exec` for an operation with no meaning yet. Safe: the run stops. -/
  | notModelled (mnemonic : String)
  /-- Raised by `step` for a delivered frame that stands for no operation (assumption log 2). Safe: the run stops. -/
  | undecodableFrame
  /-- Raised by `SET_LED`, also where the host paints, for a position that is negative or not below `N`: "has no
  meaning ... A model refuses it" (R142). Safe: the run stops. -/
  | ledOutOfRange (pos : Int)
  /-- Raised by `ADDR_MATCH`, also as an interrupt inside a `GET_COMMAND`, for an address that the device does not answer:
  R264 (b) makes it a duty of the driver to deliver none, and "event streams that break the host duties" are things "the
  model refuses" (R233). Safe: the run stops. -/
  | addressNotMatched (a : Addr)
  deriving DecidableEq, Repr

/-- The outcome of an operation. -/
abbrev Result := Host.Outcome State Fault Refusal

/-- `DisplayState` after reset (R26 to R30): zero tables, slot (0, 0), every pin high-impedance. -/
def Display.reset (c : Config) : Display where
  intensity := List.replicate c.nLeds 0
  bitplane := List.replicate c.nLeds 0
  dirbits := List.replicate c.nPins (List.replicate c.nPlanes (List.replicate c.nPins false))
  scanPhase := 0
  scanCycle := 0
  dwellCounter := 0
  out := List.replicate c.nPins false
  dir := List.replicate c.nPins false

/-- The host before its first tick: no reset value is in the source (R202, assumption log 10). -/
def HostState.reset : HostState where
  mode := .normal
  animationType := 0
  speed := 0
  focus := 0
  counter := 0
  sweep := 0
  injected := 0
  lastCommand := none

/-- The `RESET` event (R260) of the instance with parameters `c`: "every stored element is zero, `direction` is
`WRITE`, and all pins are high-impedance". Nothing is delivered yet. -/
def State.resetWith (c : Config) : State where
  cfg := c
  dec := { increment := 0, clicks := 0, lockout := 0 }
  disp := Display.reset c
  regs := { value := 0, clickCount := 0, illumType := 0, illumData := Vector.replicate 20 0 }
  scr := { latchedAddress := 0, direction := .write, buffer := Vector.replicate 20 0, offset := 0, size := 0 }
  busError := false
  host := HostState.reset
  inbox := []
  races := []
  draws := 0
  trace := []

/-- The machine right after reset, on the reference instance of R9 (assumption log 3). -/
def State.reset : State := State.resetWith referenceConfig

end Sys2Proof.Machine
end

