-- ==== Sys2Proof/Machine/Flags.lean ====
section
/-! DEFINITION. The one-bit conditions of the block (spec/10_state.md R24, R31, R38) and what the pins show
(spec/30_encoding.md R103). There are no arithmetic flags (R38). -/

namespace Sys2Proof.Machine

/-- `LOCKED := lockout > 0` (R24). -/
def State.locked (s : State) : Bool := decide (0 < s.dec.lockout)

/-- `IDLE := lockout = 0` (R24). -/
def State.idle (s : State) : Bool := decide (s.dec.lockout = 0)

/-- `active := DIR ≠ 0` (R31). -/
def State.active (s : State) : Bool := s.disp.dir.any id

/-- The level of a pin from its two register bits (R103). -/
def pinLevel (dir out : Bool) : PinLevel :=
  match dir, out with
  | false, _ => .Z
  | true, true => .H
  | true, false => .L

/-- Pin `k` (R103). -/
def pinAt (dir out : Bits) (k : Nat) : PinLevel := pinLevel (dir.getD k false) (out.getD k false)

/-- The `P` pins, pin 0 first (R12, R103). -/
def pinLevels (p : Nat) (dir out : Bits) : List PinLevel := (List.range p).map (pinAt dir out)

/-- What the pins show now. -/
def State.pins (s : State) : List PinLevel := pinLevels s.cfg.nPins s.disp.dir s.disp.out

/-- LED `pos` is lit iff its source pin is `H` and its sink pin is `L` (R31). -/
def State.lit (s : State) (pos : Nat) : Bool :=
  decide (pinAt s.disp.dir s.disp.out (srcOf s.cfg pos) = .H ∧ pinAt s.disp.dir s.disp.out (snkOf s.cfg pos) = .L)

end Sys2Proof.Machine
end

