-- ==== Sys2Proof/Machine/Ops.lean ====
section
/-! DEFINITION. The named operations the meanings share: one update per group of the state, the trace, the named
conditions, the edge lockout, the pin steps of a scan transition, the transaction buffer, and running one operation
after another. The block has no trap mechanism (spec/60_exceptions.md R238): the one thing that stands where other
machines take an exception is a named condition, which is recorded and transfers no control (R11, R230). -/

namespace Sys2Proof.Machine

/-- Replace `DecoderState`. -/
def State.withDec (s : State) (d : Decoder) : State := { s with dec := d }

/-- Replace `DisplayState`. -/
def State.withDisp (s : State) (d : Display) : State := { s with disp := d }

/-- Replace `RegisterFile`. -/
def State.withRegs (s : State) (r : RegisterFile) : State := { s with regs := r }

/-- Replace the scratch. -/
def State.withScr (s : State) (c : Scratch) : State := { s with scr := c }

/-- Replace `bus_error`. -/
def State.withBusError (s : State) (e : Bool) : State := { s with busError := e }

/-- Replace the host's state. -/
def State.withHost (s : State) (h : HostState) : State := { s with host := h }

/-- Replace the delivered operations. -/
def State.withInbox (s : State) (l : List Frame) : State := { s with inbox := l }

/-- Replace the interleavings of the coming `GET_COMMAND`s. -/
def State.withRaces (s : State) (l : List (List RaceItem)) : State := { s with races := l }

/-- Replace the draw counter. -/
def State.withDraws (s : State) (n : Nat) : State := { s with draws := n }

/-- Show something outside: it joins the end of the trace. -/
def State.emit (s : State) (o : Output) : State := { s with trace := s.trace ++ [o] }

/-- `raise <Condition>` (R11): "the named condition occurred: no control transfer follows, because the block has no trap
mechanism". -/
def State.raise (s : State) (c : Condition) : State := s.emit (.condition c)

/-- One operation, then another on the state it leaves; a refusal ends both. -/
def andThen (r : Result) (f : State → Result) : Result :=
  match r with
  | .next s => f s
  | .fault e => .fault e
  | .refused e => .refused e

/-- An accepted edge: the decoder takes `d` and enters LOCKED for `LOCKOUT_TICKS` (R122, R123). An edge that arrives
while `lockout > 0` changes nothing ("Edges received while LOCKED are ignored"). -/
def acceptEdge (s : State) (d : Decoder) : State :=
  if s.dec.lockout = 0 then s.withDec { d with lockout := s.cfg.lockoutTicks } else s

/-- The direction-bit tables, `intensity` and `bitplane` after LED `pos` is set to `v` (R141). -/
def Display.setLed (c : Config) (d : Display) (pos : Nat) (v : Byte) : Display :=
  { d with
    intensity := d.intensity.set pos v
    bitplane := d.bitplane.set pos (topBits c.nPlanes v)
    dirbits := writePlanes d.dirbits (srcOf c pos) (snkOf c pos) (topBits c.nPlanes v) }

/-- Show the present pin state (R145). -/
def State.showPins (s : State) : State := s.emit (.pins s.pins)

/-- Step 1 of a scan transition (R143): `DIR <- 0 ; OUT <- 0`, all pins `Z`; the dwell counter starts again. -/
def clearPins (s : State) : State :=
  (s.withDisp
    { s.disp with dwellCounter := 0, out := zeroBits s.cfg.nPins, dir := zeroBits s.cfg.nPins }).showPins

/-- Step 2 of a scan transition (R143): the next slot; the phase is the inner loop, the bit-plane the outer (R144). -/
def advanceScan (s : State) : State :=
  if s.disp.scanPhase + 1 < s.cfg.nPins then
    s.withDisp { s.disp with scanPhase := s.disp.scanPhase + 1 }
  else
    s.withDisp { s.disp with scanPhase := 0, scanCycle := (s.disp.scanCycle + 1) % s.cfg.nPlanes }

/-- Step 3 of a scan transition (R143): the new slot's source pin is driven high, and the pins its table entry names at
this moment low. The two register writes are one pin-state change (R145). -/
def drivePins (s : State) : State :=
  (s.withDisp
    { s.disp with
      out := onehot s.cfg.nPins s.disp.scanPhase
      dir := orBits s.cfg.nPins (onehot s.cfg.nPins s.disp.scanPhase)
        (tableEntry s.disp.dirbits s.disp.scanPhase s.disp.scanCycle) }).showPins

/-- The clear-then-set transition: steps 1, 2, 3 in that order (R143, R82, R265). -/
def scanTransition (s : State) : State := drivePins (advanceScan (clearPins s))

/-- Latch an address phase: the selector, the direction, `offset` and `size` 0 (R171). The buffer's bytes stay. -/
def Scratch.latch (c : Scratch) (off : Addr) (dir : Direction) : Scratch :=
  { c with latchedAddress := off, direction := dir, offset := 0, size := 0 }

/-- A 4-byte big-endian reply is put into the buffer: `buffer[0..3] <- be32(w) ; size <- 4` (R172, R173). -/
def Scratch.loadReply (c : Scratch) (w : Word) : Scratch :=
  { c with buffer := storeBe32 c.buffer w, size := 4 }

/-- `buffer[size] <- b ; size <- size + 1` (R176). -/
def Scratch.append (c : Scratch) (b : Byte) : Scratch :=
  { c with buffer := c.buffer.setIfInBounds c.size b, size := c.size + 1 }

/-- The byte at `offset` (R174). -/
def Scratch.head (c : Scratch) : Byte := c.buffer.getD c.offset 0

/-- `offset <- offset + 1` (R174). -/
def Scratch.advance (c : Scratch) : Scratch := { c with offset := c.offset + 1 }

end Sys2Proof.Machine
end

