-- ==== Sys2Proof/Machine/BusResponder.lean ====
section
/-! DEFINITION. The Bus Register Responder (spec/42_bus_responder.md): the register accesses, and the events
`ADDR_MATCH`, `BYTE_READY_RD`, `BYTE_READY_WR`, `STOP`, `BUS_ERROR` that select them. The rules of the last four are
total: they give a result in every state, also where a driver breaks duty (a) of R264; an address the device does not
answer (duty (b)) is refused (R233, assumption log 8). -/

namespace Sys2Proof.Machine

/-! ### Register accesses (assumption log 7: each does what its rule's pseudocode says, also when it is run alone) -/

/-- `RD_VALUE` (R172): the reply is `be32(value)`, then `value` is zeroed. -/
def rdValue (s : State) : State :=
  (s.withScr (s.scr.loadReply s.regs.value)).withRegs { s.regs with value := 0 }

/-- `RD_CLICK` (R173): the reply is `be32(click_count)`, then `click_count` is zeroed. -/
def rdClick (s : State) : State :=
  (s.withScr (s.scr.loadReply s.regs.clickCount)).withRegs { s.regs with clickCount := 0 }

/-- `RD_OTHER` (R175): an empty reply; `size` stays, no register changes. -/
def rdOther (_off : Addr) (s : State) : State := s

/-- `WR_VALUE` (R177): the first four bytes, big-endian, overwrite `value`. -/
def wrValue (s : State) : State := s.withRegs { s.regs with value := loadBe32 s.scr.buffer }

/-- `WR_CLICK` (R178): the first four bytes, big-endian, overwrite `click_count`. -/
def wrClick (s : State) : State := s.withRegs { s.regs with clickCount := loadBe32 s.scr.buffer }

/-- `WR_ILLUM_TYPE` (R183): `illum_type <- buffer[0]`. -/
def wrIllumType (s : State) : State := s.withRegs { s.regs with illumType := s.scr.buffer[0] }

/-- `WR_ILLUM_DATA` (R184): the buffered bytes, zero-padded to 20. -/
def wrIllumData (s : State) : State :=
  s.withRegs { s.regs with illumData := zeroPadded s.scr.buffer s.scr.size }

/-- `WR_OTHER` (R185): nothing is ever committed. -/
def wrOther (_off : Addr) (s : State) : State := s

/-! ### Events -/

/-- The read-direction part of an address phase (R171): which register the reply comes from. -/
def populateReply (s : State) : State :=
  match s.scr.latchedAddress.toNat with
  | 0 => rdValue s
  | 1 => rdClick s
  | _ => rdOther s.scr.latchedAddress s

/-- The part of an address phase that is the same in both directions (R171): latch, reset the scratch's two counters,
clear `bus_error`; the address is acknowledged (R95). -/
def latchAddress (a : Addr) (dir : Direction) (s : State) : State :=
  ((s.withScr (s.scr.latch (registerOffset s.cfg a) dir)).withBusError false).emit .addressAck

/-- `ADDR_MATCH(a, dir)` at an address the device answers (R171). -/
def addrMatch (a : Addr) (dir : Direction) (s : State) : State :=
  match dir with
  | .read => populateReply (latchAddress a .read s)
  | .write => latchAddress a .write s

/-- `BYTE_READY_RD()` (R174): the next reply byte, or the sentinel past the reply or in an abandoned transaction. -/
def byteReadyRd (s : State) : State :=
  if s.busError then s.emit (.data Config.sentinel)
  else if s.scr.offset < s.scr.size then (s.withScr s.scr.advance).emit (.data s.scr.head)
  else (s.raise .overread).emit (.data Config.sentinel)

/-- The commit of a fixed-width register (R176): which register the latched selector names. -/
def commitFixed (s : State) : State :=
  match s.scr.latchedAddress.toNat with
  | 0 => wrValue s
  | 1 => wrClick s
  | 3 => wrIllumType s
  | _ => wrOther s.scr.latchedAddress s

/-- "If the latched address is a known fixed-width writable register and `size` now equals that width, commit" (R176). -/
def commitIfComplete (s : State) : State :=
  if registerWidth s.scr.latchedAddress = some s.scr.size then commitFixed s else s

/-- `BYTE_READY_WR(b)` (R176): append and perhaps commit; dropped past the capacity and in an abandoned transaction;
acknowledged always. -/
def byteReadyWr (b : Byte) (s : State) : State :=
  if s.busError then s.emit .ack
  else if s.scr.size < Config.bufCap then (commitIfComplete (s.withScr (s.scr.append b))).emit .ack
  else (s.raise .overwrite).emit .ack

/-- `STOP()` (R179): commits `illum_data` for a write to offset 4 that was not abandoned; the scratch is kept. -/
def stop (s : State) : State :=
  if s.busError = false ∧ s.scr.direction = .write ∧ s.scr.latchedAddress = 4 then wrIllumData s else s

/-- `BUS_ERROR()` (R180): the transaction is abandoned, the flag recorded; nothing else changes. -/
def busErrorEvent (s : State) : State := (s.withBusError true).raise .busError

/-- Meaning of `ADDR_MATCH` (R171). "The driver delivers `ADDR_MATCH` only for `(a AND NOT BUS_MASK) = BUS_BASE`" (R97);
an event stream that breaks this duty (R264 b) is one "the model refuses" (R233). -/
def execAddrMatch (a : Addr) (dir : Direction) (s : State) : Result :=
  if addressMatched s.cfg a then .next (addrMatch a dir s) else .refused (.addressNotMatched a)

/-- Meaning of `BYTE_READY_RD` (R174). -/
def execByteReadyRd (s : State) : Result := .next (byteReadyRd s)

/-- Meaning of `BYTE_READY_WR` (R176). -/
def execByteReadyWr (b : Byte) (s : State) : Result := .next (byteReadyWr b s)

/-- Meaning of `STOP` (R179). -/
def execStop (s : State) : Result := .next (stop s)

/-- Meaning of `BUS_ERROR` (R180). -/
def execBusError (s : State) : Result := .next (busErrorEvent s)

/-- Meaning of `RD_VALUE` (R172). -/
def execRdValue (s : State) : Result := .next (rdValue s)

/-- Meaning of `RD_CLICK` (R173). -/
def execRdClick (s : State) : Result := .next (rdClick s)

/-- Meaning of `RD_OTHER` (R175). -/
def execRdOther (off : Addr) (s : State) : Result := .next (rdOther off s)

/-- Meaning of `WR_VALUE` (R177). -/
def execWrValue (s : State) : Result := .next (wrValue s)

/-- Meaning of `WR_CLICK` (R178). -/
def execWrClick (s : State) : Result := .next (wrClick s)

/-- Meaning of `WR_ILLUM_TYPE` (R183). -/
def execWrIllumType (s : State) : Result := .next (wrIllumType s)

/-- Meaning of `WR_ILLUM_DATA` (R184). -/
def execWrIllumData (s : State) : Result := .next (wrIllumData s)

/-- Meaning of `WR_OTHER` (R185). -/
def execWrOther (off : Addr) (s : State) : Result := .next (wrOther off s)

end Sys2Proof.Machine
end

