-- ==== Sys2Proof/Machine/RotaryDecoder.lean ====
section
/-! DEFINITION. The Rotary Decoder (spec/40_rotary_decoder.md): `ROT_EDGE`, `PRESS_EDGE`, `DEC_TICK`,
`DRAIN_INCREMENT`, `DRAIN_CLICKS`. Each is one atomic step. -/

namespace Sys2Proof.Machine

/-- `ROT_EDGE(level)` (R122): while IDLE, the direction is added into `increment` modulo 2^32. -/
def rotEdge (level : Bool) (s : State) : State :=
  acceptEdge s { s.dec with increment := s.dec.increment + turnWord (dirOfLevel s.cfg level) }

/-- `PRESS_EDGE()` (R123): while IDLE, `clicks` goes up by one modulo `2^CLICK_W`. -/
def pressEdge (s : State) : State :=
  acceptEdge s { s.dec with clicks := (s.dec.clicks + 1) % 2 ^ s.cfg.clickWidth }

/-- `DEC_TICK()` (R124): `lockout` goes down by one and stops at 0. -/
def decTick (s : State) : State := s.withDec { s.dec with lockout := s.dec.lockout - 1 }

/-- `DRAIN_INCREMENT()` (R125): read-and-clear. -/
def drainIncrement (s : State) : State :=
  (s.withDec { s.dec with increment := 0 }).emit (.increment s.dec.increment)

/-- `DRAIN_CLICKS()` (R126): read-and-clear. -/
def drainClicks (s : State) : State :=
  (s.withDec { s.dec with clicks := 0 }).emit (.clicks s.dec.clicks)

/-- Meaning of `ROT_EDGE` (R122). -/
def execRotEdge (level : Bool) (s : State) : Result := .next (rotEdge level s)

/-- Meaning of `PRESS_EDGE` (R123). -/
def execPressEdge (s : State) : Result := .next (pressEdge s)

/-- Meaning of `DEC_TICK` (R124). -/
def execDecTick (s : State) : Result := .next (decTick s)

/-- Meaning of `DRAIN_INCREMENT` (R125). -/
def execDrainIncrement (s : State) : Result := .next (drainIncrement s)

/-- Meaning of `DRAIN_CLICKS` (R126). -/
def execDrainClicks (s : State) : Result := .next (drainClicks s)

end Sys2Proof.Machine
end

