-- ==== Sys2Proof/Machine/CommandAccessor.lean ====
section
/-! DEFINITION. `GET_COMMAND` (spec/42_bus_responder.md R182), the one operation that is not atomic (spec/20_memory.md
R79): its reads are single steps in an unspecified order, and interrupt-context operations may stand between any two of
them. What stands between them, and the order of the reads, is plain data: the first entry of `races`. -/

namespace Sys2Proof.Machine

/-- An interrupt-context operation, run to completion as one atomic step (R75, R239). -/
def runInterrupt (e : Interrupt) (s : State) : State :=
  match e with
  | .rotEdge level => rotEdge level s
  | .pressEdge => pressEdge s
  | .addrMatch a dir => addrMatch a dir s
  | .byteReadyRd => byteReadyRd s
  | .byteReadyWr b => byteReadyWr b s
  | .stop => stop s
  | .busError => busErrorEvent s

/-- The single reads a call has made so far. -/
structure Reads where
  addr : Option Addr
  size : Option Nat
  bytes : Vector (Option Byte) 20
  deriving DecidableEq, Repr

/-- No read made yet. -/
def Reads.start : Reads := { addr := none, size := none, bytes := Vector.replicate 20 none }

/-- Read `latched_address`, if this call has not read it yet. -/
def Reads.readAddr (r : Reads) (c : Scratch) : Reads := { r with addr := some (r.addr.getD c.latchedAddress) }

/-- Read `size`, if this call has not read it yet. -/
def Reads.readSize (r : Reads) (c : Scratch) : Reads := { r with size := some (r.size.getD c.size) }

/-- Read `buffer[i]`, if this call has not read it yet. -/
def Reads.readByte (r : Reads) (c : Scratch) (i : Nat) : Reads :=
  { r with bytes := r.bytes.mapIdx (fun j x => if j = i then some (x.getD (c.buffer.getD i 0)) else x) }

/-- One thing that happens during a call: an interrupt, or one read of the state as it is at that moment (R79: "each
single read is atomic"). -/
def raceStep (q : State × Reads) (item : RaceItem) : State × Reads :=
  match item with
  | .interrupt e => (runInterrupt e q.1, q.2)
  | .readAddr => (q.1, q.2.readAddr q.1.scr)
  | .readSize => (q.1, q.2.readSize q.1.scr)
  | .readByte i => (q.1, q.2.readByte q.1.scr i)

/-- Everything that happens during a call, in order. -/
def runRace (items : List RaceItem) (s : State) : State × Reads := items.foldl raceStep (s, Reads.start)

/-- The address a call returns: the one it read, or, if it has not read it yet, the one that is latched now. -/
def Reads.resultAddr (r : Reads) (c : Scratch) : Addr := r.addr.getD c.latchedAddress

/-- The bytes a call returns: as many as the size it read, each one read already or read now. -/
def Reads.resultBytes (r : Reads) (c : Scratch) : List Byte :=
  (r.bytes.mapIdx (fun i x => x.getD (c.buffer.getD i 0))).toList.take (r.size.getD c.size)

/-- The result of a call whose race has run: the address and the bytes. -/
def raceResult (q : State × Reads) : Addr × List Byte := (q.2.resultAddr q.1.scr, q.2.resultBytes q.1.scr)

/-- The race of the coming call. -/
def State.race (s : State) : List RaceItem := s.races.headD []

/-- The state and the reads after the race of this call; its entry of `races` is used up. -/
def raced (s : State) : State × Reads := runRace s.race (s.withRaces s.races.tail)

/-- The result `(addr, bytes)` of a `GET_COMMAND` in a state (R182). -/
def commandRead (s : State) : Addr × List Byte := raceResult (raced s)

/-- `GET_COMMAND()` (R182): "does not block and does not clear state". What the interrupts that preempt it do stays
done; the call itself writes nothing. -/
def getCommand (s : State) : State := (raced s).1.emit (.command (commandRead s).1 (commandRead s).2)

/-- The address of an address phase that the device does not answer: an interrupt the driver must not deliver (R264 b). -/
def unmatchedItem (c : Config) (item : RaceItem) : Option Addr :=
  match item with
  | .interrupt (.addrMatch a _) => if addressMatched c a then none else some a
  | _ => none

/-- The first such address in a race. -/
def unmatchedIn (c : Config) (items : List RaceItem) : Option Addr := items.findSome? (unmatchedItem c)

/-- Meaning of `GET_COMMAND` (R182). An interrupt in its race that `ADDR_MATCH` refuses (R233) refuses the whole. -/
def execGetCommand (s : State) : Result :=
  match unmatchedIn s.cfg s.race with
  | none => .next (getCommand s)
  | some a => .refused (.addressNotMatched a)

end Sys2Proof.Machine
end

