-- ==== Sys2Proof/Machine/DisplayMux.lean ====
section
/-! DEFINITION. The Display Multiplexer (spec/41_display_multiplexer.md): `SET_LED` and `DISP_TICK`. -/

namespace Sys2Proof.Machine

/-- `SET_LED` at a position of the table (R141): the tables and nothing else; "no immediate I/O". -/
def setLedAt (pos : Nat) (v : Byte) (s : State) : State := s.withDisp (s.disp.setLed s.cfg pos v)

/-- `DISP_TICK()` (R143): count one tick of the current slot; when its dwell is reached, go to the next slot. -/
def dispTick (s : State) : State :=
  if dwellOf s.cfg s.disp.scanPhase s.disp.scanCycle ≤ s.disp.dwellCounter + 1 then
    scanTransition s
  else
    s.withDisp { s.disp with dwellCounter := s.disp.dwellCounter + 1 }

/-- Meaning of `SET_LED` (R141). With a negative position or one not below `N` it "has no meaning ... A model refuses
it; it must not be modelled as a no-op or as an access modulo `N`" (R142). -/
def execSetLed (pos : Int) (v : Byte) (s : State) : Result :=
  if 0 ≤ pos ∧ pos < s.cfg.nLeds then .next (setLedAt pos.toNat v s) else .refused (.ledOutOfRange pos)

/-- Meaning of `DISP_TICK` (R143). -/
def execDispTick (s : State) : Result := .next (dispTick s)

end Sys2Proof.Machine
end

