-- ==== Sys2Proof/Machine/HostController.lean ====
section
/-! DEFINITION. `CTRL_TICK` (spec/43_host_controller.md R203): the Controller, surrounding software (R2) that uses the
block only through its four accessors. What the source leaves open about it is taken from the free values of Config. -/

namespace Sys2Proof.Machine

/-- The free values of one tick, gathered. -/
structure HostDraw where
  order : Fin 6
  toggles : Nat → Nat
  staleAccepted : Bool
  onPath : Nat → Bool
  readvance : Nat

/-- The free values at a value of the draw counter. -/
def drawAt (k : Nat) : HostDraw where
  order := Config.hostOrder k
  toggles := Config.clickToggles k
  staleAccepted := Config.staleAccepted k
  onPath := Config.sweepOnPath k
  readvance := Config.sweepReadvance k

/-- A sequence of `SET_LED` calls of the host, in order (R203 e). -/
def paint : List (Int × Byte) → State → Result
  | [], s => .next s
  | (pos, v) :: rest, s => andThen (execSetLed pos v s) (paint rest)

/-- `CLEAR_ALL()` (R106): `SET_LED(pos, 0)` for every LED in ascending order. -/
def clearAllCalls (n : Nat) : List (Int × Byte) := (List.range n).map (fun pos => ((pos : Int), (0 : Byte)))

/-- Type 0, "comet" (R207): the tail behind the focus, then the focus. -/
def cometCalls (c : Config) (focus : Nat) (dir : Int) : List (Int × Byte) :=
  ((List.range Config.tail).map (fun k => ((wrapIndex (focus - dir * (k + 1)) c.nLeds : Int), c.partialLevel)))
    ++ [((focus : Int), Config.full)]

/-- Type 1, "symmetric comet" (R208): the tail on both sides, then the focus. -/
def symmetricCalls (c : Config) (focus : Nat) : List (Int × Byte) :=
  ((List.range Config.tail).flatMap (fun k =>
    [((wrapIndex ((focus : Int) - (k + 1)) c.nLeds : Int), c.partialLevel),
     ((wrapIndex ((focus : Int) + (k + 1)) c.nLeds : Int), c.partialLevel)]))
    ++ [((focus : Int), Config.full)]

/-- Type 2, "sweep" (R210): some LEDs, which ones is open, at the dim level, then the focus. -/
def sweepCalls (c : Config) (focus : Nat) (onPath : Nat → Bool) : List (Int × Byte) :=
  (((List.range c.nLeds).filter onPath).map (fun pos => ((pos : Int), Config.dimLevel))) ++ [((focus : Int), Config.full)]

/-- The mode-toggle action (R204): "always clears the full display on transition". -/
def toggleMode (s : State) : Result :=
  paint (clearAllCalls s.cfg.nLeds)
    (s.withHost { s.host with mode := match s.host.mode with | .normal => .adjust | .adjust => .normal })

/-- The mode-toggle action `k` times. -/
def toggleTimes : Nat → State → Result
  | 0, s => .next s
  | k + 1, s => andThen (toggleMode s) (toggleTimes k)

/-- The sweep counter after one frame of type 2: 0 to 2N, then 0 again (R210). -/
def nextSweep (n sweep : Nat) : Nat := if sweep < 2 * n then sweep + 1 else 0

/-- The focus that a frame of type 2 paints: re-advanced after a full double sweep, by an amount that is open (R210). -/
def sweepFocus (n sweep focus readvance : Nat) : Nat :=
  if sweep < 2 * n then focus else wrapIndex ((focus : Int) + readvance) n

/-- What a frame paints after the display was cleared (R206), and the host after it. -/
def paintFrame (d : HostDraw) (dir : Int) (s : State) : Result :=
  match s.host.animationType with
  | 0 => paint (cometCalls s.cfg s.host.focus dir) s
  | 1 => paint (symmetricCalls s.cfg s.host.focus) s
  | _ =>
    paint (sweepCalls s.cfg (sweepFocus s.cfg.nLeds s.host.sweep s.host.focus d.readvance) d.onPath)
      (s.withHost
        { s.host with
          focus := sweepFocus s.cfg.nLeds s.host.sweep s.host.focus d.readvance
          sweep := nextSweep s.cfg.nLeds s.host.sweep })

/-- The speed after a frame has folded the pending increments into it (R206). -/
def foldedSpeed (s : State) : Int := s.host.speed + s.dec.increment.toInt + s.host.injected

/-- The host at a frame before it paints (R206): speed folded, focus advanced by the sign of the speed modulo N. -/
def frameHost (s : State) : HostState :=
  { s.host with
    counter := 0
    speed := foldedSpeed s
    injected := 0
    focus := wrapIndex (s.host.focus + (foldedSpeed s).sign) s.cfg.nLeds }

/-- `FRAME()` (R206). -/
def frame (d : HostDraw) (s : State) : Result :=
  andThen (paint (clearAllCalls s.cfg.nLeds) ((drainIncrement s).withHost (frameHost s)))
    (paintFrame d (foldedSpeed s).sign)

/-- The frame-pacing counter after one tick: `counter + max(1, |speed|)` (R205). -/
def pacedCounter (h : HostState) : Nat := h.counter + max 1 h.speed.natAbs

/-- One tick in NORMAL mode (R205). -/
def normalTick (d : HostDraw) (s : State) : Result :=
  if Config.frameThreshold ≤ pacedCounter s.host then frame d s
  else .next (s.withHost { s.host with counter := pacedCounter s.host })

/-- The ADJUST handler with an increment `v` (R211): the type cycles modulo 3; only the LED of the type shows. -/
def adjustBy (v : Int) (s : State) : Result :=
  let kind := wrapIndex (s.host.animationType + v) Config.nAnim
  paint (clearAllCalls s.cfg.nLeds ++ [((kind : Int), Config.full)])
    (s.withHost { s.host with animationType := kind })

/-- Sub-step: the current mode's handler (R203 c). In ADJUST mode the decoder's increment is taken each tick. -/
def handlerPhase (d : HostDraw) (s : State) : Result :=
  match s.host.mode with
  | .normal => normalTick d s
  | .adjust => adjustBy s.dec.increment.toInt (drainIncrement s)

/-- How often the mode toggles for a drained click count (R204): once for one click; for more, open. -/
def togglesFor (d : HostDraw) (clicks : Nat) : Nat :=
  match clicks with
  | 0 => 0
  | 1 => 1
  | n + 2 => d.toggles (n + 2)

/-- Sub-step: take the clicks and toggle the mode on a click (R203 a, b). -/
def clickPhase (d : HostDraw) (s : State) : Result := toggleTimes (togglesFor d s.dec.clicks) (drainClicks s)

/-- An injected increment goes to the current mode's handler (R209): into `speed` at the next frame in NORMAL, into
`animation_type` in ADJUST. -/
def inject (v : Int) (s : State) : Result :=
  match s.host.mode with
  | .normal => .next (s.withHost { s.host with injected := s.host.injected + v })
  | .adjust => adjustBy v s

/-- Whether the host takes a command for a new one: certainly if it differs from the one read last (another register,
or other bytes for `value`); else that is open (assumption log 13). -/
def commandAccepted (d : HostDraw) (last : Option (Addr × List Byte)) (cmd : Addr × List Byte) : Bool :=
  match last with
  | none => true
  | some old => if old.1 ≠ cmd.1 ∨ (cmd.1 = 0 ∧ old.2 ≠ cmd.2) then true else d.staleAccepted

/-- The signed payload of a four-byte command (R99, R209). -/
def payload (bytes : List Byte) : Int :=
  (fromBe (bytes.getD 0 0) (bytes.getD 1 0) (bytes.getD 2 0) (bytes.getD 3 0)).toInt

/-- What the host does with the command it read (R209). A `value` command of another length than 4 is the condition
`MalformedCommand`: "ignored, no partial effect" (R230). -/
def dispatchCommand (accepted : Bool) (cmd : Addr × List Byte) (s : State) : Result :=
  match cmd.1.toNat with
  | 0 =>
    if cmd.2.length = 4 then (if accepted then inject (payload cmd.2) s else .next s)
    else .next (s.raise .malformedCommand)
  | 1 => if accepted then toggleMode s else .next s
  | _ => .next s

/-- Sub-step: read the command and dispatch it (R203 d, R209). -/
def commandPhase (d : HostDraw) (s : State) : Result :=
  andThen (execGetCommand s) (fun t =>
    dispatchCommand (commandAccepted d s.host.lastCommand (commandRead s)) (commandRead s)
      (t.withHost { s.host with lastCommand := some (commandRead s) }))

/-- The three sub-steps in one of their six orders: "in an order the source does not fix beyond the sentence quoted in rule
R200" (R203). DESIGN CHOICE (assumption log 11): that sentence is not taken to bind the order. -/
def inOrder (order : Fin 6) (a b c : State → Result) (s : State) : Result :=
  match order.val with
  | 0 => andThen (andThen (a s) b) c
  | 1 => andThen (andThen (a s) c) b
  | 2 => andThen (andThen (b s) a) c
  | 3 => andThen (andThen (b s) c) a
  | 4 => andThen (andThen (c s) a) b
  | _ => andThen (andThen (c s) b) a

/-- `CTRL_TICK()` with given free values (R203). -/
def ctrlTickWith (d : HostDraw) (s : State) : Result :=
  inOrder d.order (clickPhase d) (handlerPhase d) (commandPhase d) s

/-- Meaning of `CTRL_TICK` (R203): the free values are drawn at the present counter, which then moves on. -/
def execCtrlTick (s : State) : Result := ctrlTickWith (drawAt s.draws) (s.withDraws (s.draws + 1))

end Sys2Proof.Machine
end

