-- ==== Sys2Proof/Machine/Dispatch.lean ====
section
/-! DEFINITION. One arm per operation: the direct call of its meaning. -/

namespace Sys2Proof.Machine

def exec (i : Instr) (s : State) : Host.Outcome State Fault Refusal :=
  match i with
  | .rotEdge level => Sys2Proof.Machine.execRotEdge level s
  | .pressEdge => Sys2Proof.Machine.execPressEdge s
  | .decTick => Sys2Proof.Machine.execDecTick s
  | .drainIncrement => Sys2Proof.Machine.execDrainIncrement s
  | .drainClicks => Sys2Proof.Machine.execDrainClicks s
  | .setLed pos intensity => Sys2Proof.Machine.execSetLed pos intensity s
  | .dispTick => Sys2Proof.Machine.execDispTick s
  | .addrMatch a dir => Sys2Proof.Machine.execAddrMatch a dir s
  | .byteReadyRd => Sys2Proof.Machine.execByteReadyRd s
  | .byteReadyWr b => Sys2Proof.Machine.execByteReadyWr b s
  | .stop => Sys2Proof.Machine.execStop s
  | .busError => Sys2Proof.Machine.execBusError s
  | .getCommand => Sys2Proof.Machine.execGetCommand s
  | .rdValue => Sys2Proof.Machine.execRdValue s
  | .rdClick => Sys2Proof.Machine.execRdClick s
  | .rdOther off => Sys2Proof.Machine.execRdOther off s
  | .wrValue => Sys2Proof.Machine.execWrValue s
  | .wrClick => Sys2Proof.Machine.execWrClick s
  | .wrIllumType => Sys2Proof.Machine.execWrIllumType s
  | .wrIllumData => Sys2Proof.Machine.execWrIllumData s
  | .wrOther off => Sys2Proof.Machine.execWrOther off s
  | .ctrlTick => Sys2Proof.Machine.execCtrlTick s

end Sys2Proof.Machine
end

