-- ==== Sys2Proof/WellFormed.lean ====
section
/-! DEFINITION. Which instruction terms stand for a row of the table, and which parameter records meet the constraints
of spec/00_scope.md R8. -/

namespace Sys2Proof

/-- A well-formed term. The catch-all register accesses exclude the offsets that a specific row takes (R104). The
position of `SET_LED` is an integer that its frame of four bytes can carry (assumption log 24); that it is below `N`
is checked where it runs (R142). -/
def Instr.wf : Instr → Bool
  | .setLed pos _ => decide (-(2 ^ 31 : Int) ≤ pos ∧ pos < 2 ^ 31)
  | .rdOther off => decide (off ≠ 0 ∧ off ≠ 1)
  | .wrOther off => decide (off ≠ 0 ∧ off ≠ 1 ∧ off ≠ 3 ∧ off ≠ 4)
  | .rotEdge _ | .pressEdge | .decTick | .drainIncrement | .drainClicks | .dispTick | .addrMatch _ _ | .byteReadyRd
  | .byteReadyWr _ | .stop | .busError | .getCommand | .rdValue | .rdClick | .wrValue | .wrClick | .wrIllumType
  | .wrIllumData | .ctrlTick => true

/-- R8, the LED map: every LED has a source and a sink pin below `P`, the two differ, and the pair is injective. -/
abbrev Config.LedMapOk (c : Config) : Prop :=
  c.ledSrc.length = c.nLeds ∧ c.ledSnk.length = c.nLeds ∧
  (∀ x ∈ c.ledSrc, x < c.nPins) ∧ (∀ x ∈ c.ledSnk, x < c.nPins) ∧
  (∀ q ∈ c.ledSrc.zip c.ledSnk, q.1 ≠ q.2) ∧ (c.ledSrc.zip c.ledSnk).Nodup

/-- R8, the dwell table: one entry per slot, each at least 1. -/
abbrev Config.DwellOk (c : Config) : Prop :=
  c.dwell.length = c.nPins ∧ ∀ row ∈ c.dwell, row.length = c.nPlanes ∧ ∀ d ∈ row, 1 ≤ d

/-- R8, the sizes: `P ≥ 2`, `1 ≤ N ≤ P·(P−1)`, `1 ≤ C ≤ 8`, `1 ≤ CLICK_W ≤ 32`. -/
abbrev Config.SizesOk (c : Config) : Prop :=
  2 ≤ c.nPins ∧ 1 ≤ c.nLeds ∧ c.nLeds ≤ c.nPins * (c.nPins - 1) ∧ 1 ≤ c.nPlanes ∧ c.nPlanes ≤ 8 ∧
  1 ≤ c.clickWidth ∧ c.clickWidth ≤ 32

/-- R8, the bus address: `BUS_BASE AND BUS_MASK = 0`, and the mask keeps the offsets 0 to 4 apart. -/
abbrev Config.BusOk (c : Config) : Prop :=
  c.busBase &&& c.busMask = 0 ∧ c.busMask &&& 0b0000111 = 0b0000111

/-- Every constraint of R8. -/
abbrev Config.Wf (c : Config) : Prop :=
  c.SizesOk ∧ c.LedMapOk ∧ c.DwellOk ∧ c.BusOk

end Sys2Proof
end

