-- ==== Sys2Proof/Decode.lean ====
section
/-! DEFINITION. From bytes to an operation and back. The spec gives the block no instruction words (spec/30_encoding.md
R90); the one numbering it fixes is the selector of the register accesses (R104), which is a frame of one byte here. The
frames of the delivered events, ticks and calls are the model's own (assumption log 2): byte 0 is the format
(0 EDGE, 1 BUSEV, 2 TICK, 3 CALL, 4 HOST), byte 1 numbers the operation inside its format, and its arguments follow. -/

namespace Sys2Proof

/-- One row of the register-access part of the table: `sel AND mask = pat` selects `build offset` (R104). -/
structure SelectorRow where
  mask : Byte
  pat : Byte
  access : Instr

/-- The rows with an exact offset (spec/opcode_table.json): mask `0xFF`. They come before the catch-all rows (R104). -/
def exactRows : List SelectorRow :=
  [⟨0xFF, 0x80, .rdValue⟩, ⟨0xFF, 0x81, .rdClick⟩, ⟨0xFF, 0x00, .wrValue⟩, ⟨0xFF, 0x01, .wrClick⟩,
   ⟨0xFF, 0x03, .wrIllumType⟩, ⟨0xFF, 0x04, .wrIllumData⟩]

/-- The catch-all rows `RD_OTHER` and `WR_OTHER`, at the offset of the selector (R104): mask `0x80`. -/
def otherRows (off : Addr) : List SelectorRow :=
  [⟨0x80, 0x80, .rdOther off⟩, ⟨0x80, 0x00, .wrOther off⟩]

/-- "A row matches when `(sel AND mask) = match`" (R104). -/
def SelectorRow.hits (r : SelectorRow) (sel : Byte) : Bool := sel &&& r.mask == r.pat

/-- The register offset in a selector: `sel[6:0]` (R104). -/
def selectorOffset (sel : Byte) : Addr := sel.setWidth 7

/-- The register access a selector names: the first matching row, the specific rows first (R104). -/
def decodeSelector (sel : Byte) : Option Instr :=
  ((exactRows ++ otherRows (selectorOffset sel)).find? (fun r => r.hits sel)).map SelectorRow.access

/-- The selector `d ++ latched_address[6:0]`, `d = 1` for `READ` (R104). -/
def selector (d : Direction) (off : Addr) : Byte :=
  match d with
  | .read => 1#1 ++ off
  | .write => 0#1 ++ off

/-- Four bytes, the most significant first, as a 32-bit two's complement integer: the position of `SET_LED`. -/
def decodePos (p3 p2 p1 p0 : Nat) : Int :=
  (BitVec.ofNat 32 (((p3 * 256 + p2) * 256 + p1) * 256 + p0)).toInt

/-- The four bytes of a position, the most significant first. -/
def encodePos (pos : Int) : Frame :=
  let w := BitVec.ofInt 32 pos
  [w.extractLsb' 24 8, w.extractLsb' 16 8, w.extractLsb' 8 8, w.extractLsb' 0 8]

/-- The frames of events, ticks and calls, by the values of their bytes. Anything else is rejected. -/
def decodeEvent : List Nat → Option Instr
  | [0, 0, level] => if level = 0 then some (.rotEdge false) else if level = 1 then some (.rotEdge true) else none
  | [0, 1] => some .pressEdge
  | [1, 0, x] => some (.addrMatch (BitVec.ofNat 7 x) (if x < 128 then .write else .read))
  | [1, 1] => some .byteReadyRd
  | [1, 2, b] => some (.byteReadyWr (BitVec.ofNat 8 b))
  | [1, 3] => some .stop
  | [1, 4] => some .busError
  | [2, 0] => some .decTick
  | [2, 1] => some .dispTick
  | [3, 0] => some .drainIncrement
  | [3, 1] => some .drainClicks
  | [3, 2, p3, p2, p1, p0, v] => some (.setLed (decodePos p3 p2 p1 p0) (BitVec.ofNat 8 v))
  | [3, 3] => some .getCommand
  | [4, 0] => some .ctrlTick
  | _ => none

/-- The operation a frame stands for: one byte is a register-access selector, a longer frame an event, tick or call.
`none` is the decoder's refusal. -/
def decode : Frame → Option Instr
  | [] => none
  | [sel] => decodeSelector sel
  | b0 :: b1 :: rest => decodeEvent ((b0 :: b1 :: rest).map BitVec.toNat)

/-- The frame of an operation, from the same tables. -/
def encode : Instr → Frame
  | .rotEdge level => [0, 0, if level then 1 else 0]
  | .pressEdge => [0, 1]
  | .addrMatch a dir => [1, 0, selector dir a]
  | .byteReadyRd => [1, 1]
  | .byteReadyWr b => [1, 2, b]
  | .stop => [1, 3]
  | .busError => [1, 4]
  | .decTick => [2, 0]
  | .dispTick => [2, 1]
  | .drainIncrement => [3, 0]
  | .drainClicks => [3, 1]
  | .setLed pos v => [3, 2] ++ encodePos pos ++ [v]
  | .getCommand => [3, 3]
  | .ctrlTick => [4, 0]
  | .rdValue => [selector .read 0]
  | .rdClick => [selector .read 1]
  | .rdOther off => [selector .read off]
  | .wrValue => [selector .write 0]
  | .wrClick => [selector .write 1]
  | .wrIllumType => [selector .write 3]
  | .wrIllumData => [selector .write 4]
  | .wrOther off => [selector .write off]

/-- The longest frame, in bytes (`SET_LED`). -/
def longestFrame : Nat := 7

/-- The first `n` bytes of a number, the least significant first. -/
def bytesOf (n w : Nat) : Frame := (List.range n).map (fun i => BitVec.ofNat 8 (w / 256 ^ i))

/-- The frame of a table word of `nbits` bits: its own bytes where they decode; else, operand bytes of zero added up
to the first length that decodes (the table gives operands no bits); else its own bytes. -/
def tableFrame (nbits w : Nat) : Frame :=
  if nbits < 8 then []
  else
    (((List.range (longestFrame + 1)).map (fun k => bytesOf (nbits / 8 + k) (w % 2 ^ nbits))).find?
      (fun f => (decode f).isSome)).getD (bytesOf (nbits / 8) (w % 2 ^ nbits))

/-- The instruction the decoder reads from a table word; bit 0 is the least significant bit of the first byte. -/
def decodeTableWord (nbits w : Nat) : Option Instr := decode (tableFrame nbits w)

end Sys2Proof
end

