-- ==== Sys2Proof/Machine/Fetch.lean ====
section
/-! DEFINITION. Taking the next delivered operation, and delivering one (assumption log 1). There is no program counter
and no instruction memory (spec/10_state.md R20, R37): the agents deliver operations, and the order in which they are
delivered is the total order of spec/20_memory.md R77. -/

namespace Sys2Proof.Machine

/-- The frame of the next delivered operation, if there is one, and the state in which it runs. -/
def takeDelivered (s : State) : Option (Frame × State) :=
  match s.inbox with
  | [] => none
  | f :: rest => some (f, s.withInbox rest)

/-- Deliver a frame as the very next operation. -/
def deliverNext (f : Frame) (s : State) : State := s.withInbox (f :: s.inbox)

/-- Deliver the frame of an operation after those delivered already. -/
def deliver (i : Instr) (s : State) : State := s.withInbox (s.inbox ++ [encode i])

end Sys2Proof.Machine
end

