-- ==== Sys2Proof/Machine/Step.lean ====
section
/-! DEFINITION. One step: the next delivered operation, as one atomic operation (spec/20_memory.md R75 to R77). -/

namespace Sys2Proof.Machine

/-- Perform the next delivered operation. With nothing delivered "the block is passive and does something only when an
agent issues an operation" (R261): the state stays (assumption log 18). -/
def step (s : State) : Host.Outcome State Fault Refusal :=
  match takeDelivered s with
  | none => .next s
  | some (f, s') =>
    match decode f with
    | some i => exec i s'
    | none => .refused .undecodableFrame

/-- Place a table word where `step` takes its next operation: the head of the delivered operations. -/
def State.withFetchWord (s : State) (nbits w : Nat) : State := deliverNext (tableFrame nbits w) s

end Sys2Proof.Machine
end

