-- ==== Sys2Proof/Safety.lean ====
section
/-! DEFINITION. The terms claims are stated in: the invariants the spec gives for each group of the state, runs of
several operations, and what the environment sees. -/

namespace Sys2Proof

/-! ### Duties of the agents (R264) -/

/-- R264 (a): `BYTE_READY_RD` only in read direction, `BYTE_READY_WR` only in write direction. -/
def Instr.keepsDirection (dir : Direction) : Instr → Bool
  | .byteReadyRd => dir == .read
  | .byteReadyWr _ => dir == .write
  | _ => true

/-- R264 (b), (d): an address the device answers, a position below `N`. -/
def Instr.inRange (c : Config) : Instr → Bool
  | .addrMatch a _ => Machine.addressMatched c a
  | .setLed pos _ => decide (0 ≤ pos ∧ pos < c.nLeds)
  | _ => true

/-- An operation issued by an agent (R7): anything but a register access, which is "not an operation of its own" (R90). -/
def Instr.isOperation (i : Instr) : Bool := i.format != .busreg

end Sys2Proof

namespace Sys2Proof.Machine

/-! ### Invariants -/

/-- R22, R23: `clicks` is a `CLICK_W`-bit number, `lockout` is in `0 .. LOCKOUT_TICKS`. -/
abbrev State.DecoderOk (s : State) : Prop :=
  s.dec.clicks < 2 ^ s.cfg.clickWidth ∧ s.dec.lockout ≤ s.cfg.lockoutTicks

/-- R26 to R28, the shapes: `N` intensities and bit-planes, `P·C` table entries of `P` bits. -/
abbrev Display.Shaped (c : Config) (d : Display) : Prop :=
  d.intensity.length = c.nLeds ∧ d.bitplane.length = c.nLeds ∧ d.dirbits.length = c.nPins ∧
  ∀ row ∈ d.dirbits, row.length = c.nPlanes ∧ ∀ bits ∈ row, bits.length = c.nPins

/-- R27: `bitplane[pos] = intensity[pos] >> (8 − C)`. -/
abbrev Display.PlanesFollow (c : Config) (d : Display) : Prop :=
  d.bitplane = d.intensity.map (topBits c.nPlanes)

/-- R28 (i): the table bit of an LED in a plane is that bit of its bit-plane value. -/
abbrev Display.TablesFollow (c : Config) (d : Display) : Prop :=
  ∀ pos, pos < c.nLeds → ∀ b, b < c.nPlanes →
    tableBit d.dirbits (srcOf c pos) b (snkOf c pos) = (d.bitplane.getD pos 0).getLsbD b

/-- R28 (ii): "every bit of `dirbits[ph][b]` that is not the sink bit of some LED whose source is `ph` is 0": a bit that
is 1 is the sink bit of such an LED. -/
abbrev Display.TablesElsewhereZero (c : Config) (d : Display) : Prop :=
  ∀ ph, ph < c.nPins → ∀ b, b < c.nPlanes → ∀ k, k < c.nPins → tableBit d.dirbits ph b k = true →
    ∃ pos, pos < c.nLeds ∧ srcOf c pos = ph ∧ snkOf c pos = k

/-- R29: the scan position is a slot, and its dwell is not used up. -/
abbrev Display.ScanOk (c : Config) (d : Display) : Prop :=
  d.scanPhase < c.nPins ∧ d.scanCycle < c.nPlanes ∧ d.dwellCounter < dwellOf c d.scanPhase d.scanCycle

/-- R31: no pin is driven, or `OUT` is the current phase's bit and that pin is an output. -/
abbrev Display.PinsOk (c : Config) (d : Display) : Prop :=
  (d.dir = zeroBits c.nPins ∧ d.out = zeroBits c.nPins) ∨
  (d.out = onehot c.nPins d.scanPhase ∧ d.dir.length = c.nPins ∧ d.dir.getD d.scanPhase false = true)

/-- Everything R26 to R31 say of the display between two operations. -/
abbrev State.DisplayOk (s : State) : Prop :=
  s.disp.Shaped s.cfg ∧ s.disp.PlanesFollow s.cfg ∧ s.disp.TablesFollow s.cfg ∧ s.disp.TablesElsewhereZero s.cfg ∧
  s.disp.ScanOk s.cfg ∧ s.disp.PinsOk s.cfg

/-- R35, R187: `0 ≤ offset ≤ size ≤ BUF_CAP`. -/
abbrev State.ScratchOk (s : State) : Prop := s.scr.offset ≤ s.scr.size ∧ s.scr.size ≤ Config.bufCap

/-- R35, R187: "when `direction = READ`, `size ∈ {0, 4}`". -/
abbrev State.ReplySizeOk (s : State) : Prop := s.scr.direction = .read → s.scr.size = 0 ∨ s.scr.size = 4

/-- R202: `focus` in `[0, N)`, `animation_type ∈ {0,1,2}`, the sweep counter in `[0, 2N]`. -/
abbrev State.HostOk (s : State) : Prop :=
  s.host.focus < s.cfg.nLeds ∧ s.host.animationType < Config.nAnim ∧ s.host.sweep ≤ 2 * s.cfg.nLeds

/-- The invariant of the whole machine, on parameters that meet R8. -/
abbrev State.Inv (s : State) : Prop :=
  s.cfg.Wf ∧ s.DecoderOk ∧ s.DisplayOk ∧ s.ScratchOk ∧ s.HostOk

/-- No interrupt stands between the reads of the coming `GET_COMMAND`. -/
def State.undisturbed (s : State) : Prop := s.race = []

/-- The driver keeps duty R264 (b) in the interrupts of the coming `GET_COMMAND`. -/
def State.raceInRange (s : State) : Prop := ∀ a d, RaceItem.interrupt (.addrMatch a d) ∈ s.race → addressMatched s.cfg a

/-- What the scratch holds is no command the host acts on (R209): a selector other than `value` and `click_count`, or
`value` with another number of bytes than 4, as after reset. -/
abbrev State.noCommand (s : State) : Prop :=
  2 ≤ s.scr.latchedAddress.toNat ∨ (s.scr.latchedAddress = 0 ∧ s.scr.size ≠ 4)

/-- The command in the scratch is certainly not the one the host read last: another register, or `value` with other
bytes (assumption log 13). -/
def State.commandDiffers (s : State) : Prop :=
  ∀ old, s.host.lastCommand = some old →
    old.1 ≠ s.scr.latchedAddress ∨ (s.scr.latchedAddress = 0 ∧ old.2 ≠ s.scr.buffer.toList.take s.scr.size)

/-! ### Runs of several operations -/

/-- Operations one after another (R12: a trace is a sequence of operations); a refusal ends the run. -/
def runOps : List Instr → State → Result
  | [], s => .next s
  | i :: rest, s => andThen (exec i s) (runOps rest)

/-- `BusWrite(off, bytes)` (R96). -/
def busWrite (c : Config) (off : Addr) (bytes : List Byte) : List Instr :=
  [.addrMatch (c.busBase ||| off) .write] ++ bytes.map .byteReadyWr ++ [.stop]

/-- `BusRead(off, n)` (R96). -/
def busRead (c : Config) (off : Addr) (n : Nat) : List Instr :=
  [.addrMatch (c.busBase ||| off) .read] ++ List.replicate n .byteReadyRd ++ [.stop]

/-- Whether, with `k` `DEC_TICK`s since the last edge, every edge of the sequence comes at least `lt` `DEC_TICK`s after
the edge before it, and the sequence neither drains the increment nor lets the host or an interrupt do so (R128). -/
def spacedEdges (lt : Nat) : Nat → List Instr → Bool
  | _, [] => true
  | k, i :: rest =>
    if i.format = .edge then decide (lt ≤ k) && spacedEdges lt 0 rest
    else if i = .decTick then spacedEdges lt (k + 1) rest
    else if i = .drainIncrement ∨ i = .getCommand ∨ i = .ctrlTick then false
    else spacedEdges lt k rest

/-- The direction an operation turns by: `DIR_OF_LEVEL(level)` for `ROT_EDGE`, else 0 (R128). -/
def turnOf (c : Config) : Instr → Int
  | .rotEdge level => turnInt (dirOfLevel c level)
  | _ => 0

/-- The signed sum of the directions of a sequence (R128). -/
def turnSum (c : Config) (ops : List Instr) : Int := (ops.map (turnOf c)).sum

/-- Pins driven high in a pin state. -/
def drivenHigh (levels : List PinLevel) : Nat := levels.count .H

/-- The interrupts of a race, in order, without the reads. -/
def interruptsOf (items : List RaceItem) : List Interrupt :=
  items.filterMap (fun x => match x with | .interrupt e => some e | _ => none)

/-- The operation an interrupt is. -/
def Interrupt.toInstr : Interrupt → Instr
  | .rotEdge level => .rotEdge level
  | .pressEdge => .pressEdge
  | .addrMatch a dir => .addrMatch a dir
  | .byteReadyRd => .byteReadyRd
  | .byteReadyWr b => .byteReadyWr b
  | .stop => .stop
  | .busError => .busError

/-- The state after `DISP_TICK` (which always completes). -/
def afterTick (s : State) : State :=
  match exec .dispTick s with
  | .next t => t
  | _ => s

/-- The state after `n` `DISP_TICK`s. -/
def afterTicks : Nat → State → State
  | 0, s => s
  | n + 1, s => afterTicks n (afterTick s)

/-- In how many of `n` successive tick periods, the first one the present, LED `pos` is lit (R146, R148). -/
def litTicks (pos : Nat) : Nat → State → Nat
  | 0, _ => 0
  | n + 1, s => (if s.lit pos then 1 else 0) + litTicks pos n (afterTick s)

/-- The frame length `F` (R148): the dwells of all slots. -/
def frameLength (c : Config) : Nat :=
  ((List.range c.nPlanes).map (fun b => ((List.range c.nPins).map (fun ph => dwellOf c ph b)).sum)).sum

/-- `Σ_b bitplane[pos][b] · DWELL(LED_SRC(pos), b)` (R148). -/
def dutyOf (c : Config) (pos : Nat) (top : Byte) : Nat :=
  ((List.range c.nPlanes).map (fun b => if top.getLsbD b then dwellOf c (srcOf c pos) b else 0)).sum

/-- A frame begins: slot (0, 0) has just been activated with the present tables (R144, R146). -/
def State.atFrameStart (s : State) : Prop :=
  s.disp.scanPhase = 0 ∧ s.disp.scanCycle = 0 ∧ s.disp.dwellCounter = 0 ∧ s.disp.out = onehot s.cfg.nPins 0 ∧
  s.disp.dir = orBits s.cfg.nPins (onehot s.cfg.nPins 0) (tableEntry s.disp.dirbits 0 0)

/-- Append to the front of what was shown before: used to say that no operation reads the trace (R232). -/
def State.withPast (s : State) (past : List Output) : State := { s with trace := past ++ s.trace }

/-- An outcome with its next state changed. -/
def mapNext (f : State → State) : Result → Result
  | .next s => .next (f s)
  | .fault e => .fault e
  | .refused e => .refused e

end Sys2Proof.Machine
end

