-- ==== Sys2Proof/Certificates/Slice0/Obligations.lean ====
section
/-! DEFINITION. The statements for the provers. Each docstring names the rule of spec/ a statement comes from; where the
spec marks that rule as its own decision (spec/92_eei_decisions.md) or inference, or where a clause is the model's own
choice, it says so. -/

open Sys2Proof Sys2Proof.Machine

/-! ### Encoding and stepping -/

/-- Decoding the frame of a well-formed operation gives it back, at every operand value. The frames of events, ticks
and calls are the model's choice (assumption log 2); the register accesses' selector is R104's (the spec's decision D27). -/
def Obligations.DecodeEncodeRoundTrip : Prop :=
  ∀ i : Instr, i.wf = true → decode (encode i) = some i

/-- A frame that decodes is the one frame of its operation, and only well-formed operations come out (assumption log 2). -/
def Obligations.EncodeDecodeRoundTrip : Prop :=
  ∀ (f : Frame) (i : Instr), decode f = some i → i.wf = true ∧ encode i = f

/-- R104 (the spec's decision D27): `sel = d ++ latched_address`; the specific rows before the catch-all rows. -/
def Obligations.EverySelectorNamesOneAccess : Prop :=
  ∀ off : Addr,
    decode [1#1 ++ off] = some (if off = 0 then .rdValue else if off = 1 then .rdClick else .rdOther off) ∧
    decode [0#1 ++ off] = some (if off = 0 then .wrValue else if off = 1 then .wrClick else if off = 3 then .wrIllumType
      else if off = 4 then .wrIllumData else .wrOther off)

/-- Words written out from spec/opcode_table.json (the selectors) and from assumption log 2 (the other frames). -/
def Obligations.WrittenOutFramesDecode : Prop :=
  decodeTableWord 8 0x80 = some .rdValue ∧ decodeTableWord 8 0x81 = some .rdClick ∧
  decodeTableWord 8 0x83 = some (.rdOther 3) ∧ decodeTableWord 8 0x00 = some .wrValue ∧
  decodeTableWord 8 0x01 = some .wrClick ∧ decodeTableWord 8 0x03 = some .wrIllumType ∧
  decodeTableWord 8 0x04 = some .wrIllumData ∧ decodeTableWord 8 0x7F = some (.wrOther 0x7F) ∧
  decode [0x00, 0x00, 0x01] = some (.rotEdge true) ∧ decode [0x02, 0x00] = some .decTick ∧
  decode [0x01, 0x00, 0x91] = some (.addrMatch 0x11 .read) ∧
  decode [0x03, 0x02, 0x00, 0x00, 0x00, 0x13, 0x7F] = some (.setLed 19 127) ∧
  decode [0x03, 0x02, 0xFF, 0xFF, 0xFF, 0xFF, 0x01] = some (.setLed (-1) 1) ∧
  decode [0x04, 0x00] = some .ctrlTick ∧ decode [0x00, 0x00, 0x02] = none ∧ decode [] = none

/-- A step is the next delivered operation, run without it in the inbox; a frame that stands for no operation is
refused; with nothing delivered the block is passive (R261, an inference of the spec; assumption logs 1 and 18). -/
def Obligations.StepRunsTheDeliveredOperation : Prop :=
  ∀ s : State,
    (s.inbox = [] → step s = .next s) ∧
    ∀ (f : Frame) (rest : List Frame), s.inbox = f :: rest →
      (∀ i, decode f = some i → step s = exec i { s with inbox := rest }) ∧
      (decode f = none → step s = .refused .undecodableFrame)

/-! ### Rotary Decoder -/

/-- R122 (the spec's decisions D2, D5, D6): a rotation edge while IDLE adds its direction in 32-bit two's complement and
starts the lockout; nothing else changes. -/
def Obligations.RotEdgeWhileIdleAddsItsDirection : Prop :=
  ∀ (s : State) (level : Bool), s.dec.lockout = 0 →
    ∃ v : Word,
      exec (.rotEdge level) s = .next { s with dec := { s.dec with increment := v, lockout := s.cfg.lockoutTicks } } ∧
      v.toInt = (s.dec.increment.toInt + turnInt (dirOfLevel s.cfg level)).bmod (2 ^ 32)

/-- R123 (the spec's decisions D3, D4, D5): a press edge while IDLE counts one, modulo `2^CLICK_W`. -/
def Obligations.PressEdgeWhileIdleCountsOne : Prop :=
  ∀ s : State, s.dec.lockout = 0 →
    exec .pressEdge s = .next
      { s with dec := { s.dec with clicks := (s.dec.clicks + 1) % 2 ^ s.cfg.clickWidth, lockout := s.cfg.lockoutTicks } }

/-- R122, R123 (the spec's decisions D4, D5): one lockout for both sources, and edges while LOCKED change nothing. -/
def Obligations.EdgesWhileLockedAreIgnored : Prop :=
  ∀ s : State, 0 < s.dec.lockout → (∀ level, exec (.rotEdge level) s = .next s) ∧ exec .pressEdge s = .next s

/-- R124: `lockout` goes down by one, a no-op at zero; LOCKED ends when it reaches 0; `increment` and `clicks` stay. -/
def Obligations.DecTickCountsTheLockoutDown : Prop :=
  ∀ s : State, ∃ t : State, exec .decTick s = .next t ∧
    t = { s with dec := { s.dec with lockout := t.dec.lockout } } ∧
    (0 < s.dec.lockout → t.dec.lockout + 1 = s.dec.lockout) ∧ (s.dec.lockout = 0 → t.dec.lockout = 0) ∧
    (t.locked = false ↔ s.dec.lockout ≤ 1)

/-- R125, R126 (the spec's decision D23): a drain returns the count and clears it; a second drain returns 0; the lockout
and the other count stay. -/
def Obligations.DrainsTakeAndClear : Prop :=
  ∀ s : State,
    (∃ t : State, exec .drainIncrement s = .next t ∧
      t = { s with dec := { s.dec with increment := 0 }, trace := s.trace ++ [.increment s.dec.increment] } ∧
      exec .drainIncrement t = .next { t with trace := t.trace ++ [.increment 0] }) ∧
    (∃ t : State, exec .drainClicks s = .next t ∧
      t = { s with dec := { s.dec with clicks := 0 }, trace := s.trace ++ [.clicks s.dec.clicks] } ∧
      exec .drainClicks t = .next { t with trace := t.trace ++ [.clicks 0] })

/-- R128 (an inference of the spec): with every two edges at least `LOCKOUT_TICKS` `DEC_TICK`s apart and the decoder
IDLE at first, every edge is accepted, and the next drain returns the signed sum of the directions modulo 2^32. Other
operations, but for drains and what lets others drain, may stand anywhere between. -/
def Obligations.DebouncedTurnsSum : Prop :=
  ∀ (s t : State) (ops : List Instr), s.idle = true → s.dec.increment = 0 →
    spacedEdges s.cfg.lockoutTicks s.cfg.lockoutTicks ops = true → runOps ops s = .next t →
    (∀ (pre post : List Instr) (e : Instr) (u : State), ops = pre ++ e :: post → e.format = .edge →
      runOps pre s = .next u → u.idle = true) ∧
    ∃ v : Word, v.toInt = (turnSum s.cfg ops).bmod (2 ^ 32) ∧
      exec .drainIncrement t = .next { t with dec := { t.dec with increment := 0 }, trace := t.trace ++ [.increment v] }

/-- R129 (an inference of the spec): after an accepted edge, an edge with fewer than `LOCKOUT_TICKS` `DEC_TICK`s since
changes nothing, whatever else happened in between; with the last of `LOCKOUT_TICKS` `DEC_TICK`s just done the decoder
is IDLE again, so the next edge is accepted. -/
def Obligations.DebounceWindowIsExact : Prop :=
  ∀ (s u t : State) (e : Instr) (ops : List Instr), s.idle = true → e.format = .edge → exec e s = .next u →
    runOps ops u = .next t →
    (ops.count .decTick < s.cfg.lockoutTicks → ∀ e' : Instr, e'.format = .edge → exec e' t = .next t) ∧
    (ops.count .decTick + 1 = s.cfg.lockoutTicks → ∀ w, exec .decTick t = .next w → w.idle = true)

/-- R130 (an inference of the spec), with `LOCKOUT_TICKS ≥ 1`: after an edge, accepted or not, and any operations but
`DEC_TICK`, another edge changes nothing; and over any operations but drains, with `k` `DEC_TICK`s among them, the
increment moves by some `d` and the clicks by some `n` with `|d| + n ≤ k + 1` (modulo their widths). -/
def Obligations.AtMostOneEdgeBetweenTicks : Prop :=
  (∀ (s u : State) (e e' : Instr) (between : List Instr), 1 ≤ s.cfg.lockoutTicks → e.format = .edge →
    e'.format = .edge → Instr.decTick ∉ between → runOps (e :: between) s = .next u → exec e' u = .next u) ∧
  (∀ (s t : State) (ops : List Instr), 1 ≤ s.cfg.lockoutTicks → s.DecoderOk →
    (∀ i ∈ ops, i ≠ .drainIncrement ∧ i ≠ .drainClicks ∧ i ≠ .ctrlTick) → runOps ops s = .next t →
    ∃ (d : Int) (n : Nat), d.natAbs + n ≤ ops.count .decTick + 1 ∧
      t.dec.increment.toInt = (s.dec.increment.toInt + d).bmod (2 ^ 32) ∧
      t.dec.clicks = (s.dec.clicks + n) % 2 ^ s.cfg.clickWidth)

/-! ### Display Multiplexer -/

/-- R141, R101, R102 (the spec's decisions D9, D10, D33): `SET_LED` writes the LED's intensity, its truncation, and the
LED's table bit in every plane; no other table bit, no pin, no scan position. -/
def Obligations.SetLedWritesOnlyItsTableBits : Prop :=
  ∀ (s : State) (pos : Nat) (v : Byte), s.cfg.Wf → s.disp.Shaped s.cfg → pos < s.cfg.nLeds →
    ∃ t : State, exec (.setLed pos v) s = .next t ∧
      t = { s with disp := { s.disp with intensity := t.disp.intensity, bitplane := t.disp.bitplane,
                                         dirbits := t.disp.dirbits } } ∧
      (∀ p, t.disp.intensity.getD p 0 = if p = pos then v else s.disp.intensity.getD p 0) ∧
      (∀ p, (t.disp.bitplane.getD p 0).toNat =
        if p = pos then v.toNat / 2 ^ (8 - s.cfg.nPlanes) else (s.disp.bitplane.getD p 0).toNat) ∧
      ∀ ph b k, tableBit t.disp.dirbits ph b k =
        if ph = srcOf s.cfg pos ∧ k = snkOf s.cfg pos ∧ b < s.cfg.nPlanes then v.getLsbD (b + (8 - s.cfg.nPlanes))
        else tableBit s.disp.dirbits ph b k

/-- R142 (the spec's decision D13): a position that is negative or not below `N` is refused, never taken modulo `N`. -/
def Obligations.SetLedOutOfRangeIsRefused : Prop :=
  ∀ (s : State) (pos : Int) (v : Byte), pos < 0 ∨ (s.cfg.nLeds : Int) ≤ pos →
    exec (.setLed pos v) s = .refused (.ledOutOfRange pos)

/-- R81 (an inference of the spec): a table write is not seen on the pins before the next activation. -/
def Obligations.SetLedWaitsForTheNextActivation : Prop :=
  ∀ (s t u : State) (pos : Int) (v : Byte), exec (.setLed pos v) s = .next t →
    t.pins = s.pins ∧ t.trace = s.trace ∧
    (s.disp.dwellCounter + 1 < dwellOf s.cfg s.disp.scanPhase s.disp.scanCycle → exec .dispTick t = .next u →
      u.pins = s.pins ∧ u.trace = s.trace)

/-- R143 (the spec's decision D11): below the dwell a tick only counts. -/
def Obligations.DispTickWithinTheDwellCounts : Prop :=
  ∀ s : State, s.disp.dwellCounter + 1 < dwellOf s.cfg s.disp.scanPhase s.disp.scanCycle →
    exec .dispTick s = .next { s with disp := { s.disp with dwellCounter := s.disp.dwellCounter + 1 } }

/-- R143, R144, R145, R103 (the spec's decisions D11, D12): at the dwell a tick goes to the next slot, phase first, then
bit-plane; the pins pass through all-`Z` and then show the new slot's source `H`, its table's pins `L`, the rest `Z`. -/
def Obligations.DispTickTransitionClearsThenSets : Prop :=
  ∀ s : State, s.cfg.Wf → s.disp.scanPhase < s.cfg.nPins →
    dwellOf s.cfg s.disp.scanPhase s.disp.scanCycle ≤ s.disp.dwellCounter + 1 →
    ∃ (t : State) (ph b : Nat) (shown : List PinLevel),
      exec .dispTick s = .next t ∧
      (if s.disp.scanPhase + 1 < s.cfg.nPins then ph = s.disp.scanPhase + 1 ∧ b = s.disp.scanCycle
       else ph = 0 ∧ b = (s.disp.scanCycle + 1) % s.cfg.nPlanes) ∧
      shown = (List.range s.cfg.nPins).map
        (fun k => if k = ph then .H else if tableBit s.disp.dirbits ph b k then .L else .Z) ∧
      t = { s with
            disp := { s.disp with scanPhase := ph, scanCycle := b, dwellCounter := 0, out := t.disp.out,
                                  dir := t.disp.dir }
            trace := s.trace ++ [.pins (List.replicate s.cfg.nPins .Z), .pins shown] } ∧
      (∀ k, k < s.cfg.nPins → t.disp.out.getD k false = decide (k = ph) ∧
        t.disp.dir.getD k false = (decide (k = ph) || tableBit s.disp.dirbits ph b k)) ∧
      t.pins = shown ∧ t.active = true

/-- R82, R265: in every scan transition the pins are cleared before they are set; the environment can see the all-`Z`
state between and never two pins `H`. -/
def Obligations.PinsAreClearedBeforeTheyAreSet : Prop :=
  ∀ s t : State, exec .dispTick s = .next t →
    dwellOf s.cfg s.disp.scanPhase s.disp.scanCycle ≤ s.disp.dwellCounter + 1 →
    t.trace = s.trace ++ [.pins (List.replicate s.cfg.nPins .Z), .pins t.pins] ∧ drivenHigh t.pins ≤ 1

/-- R32: at most one phase is driven, after every operation of every agent and in every pin state shown on the way. That
any `H` pin is that of `scan_phase` is R149 and R31 (inferences of the spec); that the scan position stays a slot and the
pins stay all `Z` or those of the current phase is R29 and R31 (with the spec's decisions D11, D12, D14; assumption
log 20). These premises are part of the invariant (`StepKeepsTheInvariant`). -/
def Obligations.AtMostOnePhaseIsDriven : Prop :=
  ∀ (i : Instr) (s t : State), s.cfg.Wf → s.disp.ScanOk s.cfg → s.disp.PinsOk s.cfg → exec i s = .next t →
    t.disp.ScanOk t.cfg ∧ t.disp.PinsOk t.cfg ∧ drivenHigh t.pins ≤ 1 ∧
    (∀ k, k < t.cfg.nPins → pinAt t.disp.dir t.disp.out k = .H → k = t.disp.scanPhase) ∧
    ∃ shown : List Output, t.trace = s.trace ++ shown ∧
      ∀ levels, Output.pins levels ∈ shown → drivenHigh levels ≤ 1

/-- R148 (an inference of the spec): over a frame in which the tables do not change, an LED is lit for
`Σ_b bitplane[pos][b] · DWELL(LED_SRC(pos), b)` ticks, with the default dwell exactly `bitplane[pos]` ticks. -/
def Obligations.FrameDutyIsTheTruncatedIntensity : Prop :=
  ∀ (s : State) (pos : Nat), s.cfg.Wf → s.DisplayOk → s.atFrameStart → pos < s.cfg.nLeds →
    litTicks pos (frameLength s.cfg) s = dutyOf s.cfg pos (s.disp.bitplane.getD pos 0) ∧
    (s.cfg.dwell = defaultDwell s.cfg.nPins s.cfg.nPlanes →
      frameLength s.cfg = s.cfg.nPins * (2 ^ s.cfg.nPlanes - 1) ∧
      litTicks pos (frameLength s.cfg) s = (s.disp.intensity.getD pos 0).toNat / 2 ^ (8 - s.cfg.nPlanes))

/-- R150 (the spec's decision D14): after reset the pins stay `Z` for the first `DWELL(0,0)` ticks; the first slot ever
activated is (1, 0). -/
def Obligations.FirstSlotIsDark : Prop :=
  ∀ c : Config, c.Wf →
    (∀ n, n < dwellOf c 0 0 → (afterTicks n (State.resetWith c)).pins = List.replicate c.nPins .Z) ∧
    (afterTicks (dwellOf c 0 0) (State.resetWith c)).disp.scanPhase = 1 ∧
    (afterTicks (dwellOf c 0 0) (State.resetWith c)).disp.scanCycle = 0 ∧
    pinAt (afterTicks (dwellOf c 0 0) (State.resetWith c)).disp.dir
      (afterTicks (dwellOf c 0 0) (State.resetWith c)).disp.out 1 = .H

/-! ### Bus Register Responder -/

/-- R171 (the spec's decisions D15, D20, D21): a write-direction address phase latches the selector and the direction,
starts the scratch over, clears the error flag, is acknowledged, and touches no register. Here and below `a` is an
address the device answers (R73, R97); the others are `AddressesOfOtherDevicesAreRefused`. -/
def Obligations.AddrMatchForWriteOnlyStartsTheScratchOver : Prop :=
  ∀ (s : State) (a : Addr), a &&& ~~~s.cfg.busMask = s.cfg.busBase →
    exec (.addrMatch a .write) s = .next
      { s with
        scr := { s.scr with latchedAddress := a &&& s.cfg.busMask, direction := .write, offset := 0, size := 0 }
        busError := false
        trace := s.trace ++ [.addressAck] }

/-- R172: the reply is `value`, most significant byte first, `size` becomes 4, and `value` is zeroed; all inside the
address phase that selects offset 0, whether or not a byte is fetched. The rest of the address phase is R171's (the
spec's decisions D15, D16, D20, D21; assumption log 25); the access run alone is assumption log 7. -/
def Obligations.ReadOfValueClearsIt : Prop :=
  ∀ (s : State) (a : Addr), ∃ buf : Vector Byte 20,
    buf.toList = [s.regs.value.extractLsb' 24 8, s.regs.value.extractLsb' 16 8, s.regs.value.extractLsb' 8 8,
      s.regs.value.extractLsb' 0 8] ++ s.scr.buffer.toList.drop 4 ∧
    exec .rdValue s = .next
      { s with scr := { s.scr with buffer := buf, size := 4 }, regs := { s.regs with value := 0 } } ∧
    (a &&& ~~~s.cfg.busMask = s.cfg.busBase → a &&& s.cfg.busMask = 0 → exec (.addrMatch a .read) s = .next
      { s with
        scr := { latchedAddress := 0, direction := .read, buffer := buf, offset := 0, size := 4 }
        regs := { s.regs with value := 0 }
        busError := false
        trace := s.trace ++ [.addressAck] })

/-- R173: the same for `click_count` at offset 1, with the same decisions of the spec. -/
def Obligations.ReadOfClickCountClearsIt : Prop :=
  ∀ (s : State) (a : Addr), ∃ buf : Vector Byte 20,
    buf.toList = [s.regs.clickCount.extractLsb' 24 8, s.regs.clickCount.extractLsb' 16 8,
      s.regs.clickCount.extractLsb' 8 8, s.regs.clickCount.extractLsb' 0 8] ++ s.scr.buffer.toList.drop 4 ∧
    exec .rdClick s = .next
      { s with scr := { s.scr with buffer := buf, size := 4 }, regs := { s.regs with clickCount := 0 } } ∧
    (a &&& ~~~s.cfg.busMask = s.cfg.busBase → a &&& s.cfg.busMask = 1 → exec (.addrMatch a .read) s = .next
      { s with
        scr := { latchedAddress := 1, direction := .read, buffer := buf, offset := 0, size := 4 }
        regs := { s.regs with clickCount := 0 }
        busError := false
        trace := s.trace ++ [.addressAck] })

/-- R175: any other selector gives an empty reply and changes no register; every byte then fetched, whatever was shown
before, is `0xFF` and changes nothing. The address phase is R171's (the spec's decisions D15, D20, D21; assumption
log 25), that each such byte shows `Overread` is R174 (D20; assumption log 27), the access run alone is assumption
log 7. -/
def Obligations.ReadOfOtherOffsetsIsEmpty : Prop :=
  ∀ (s : State) (a : Addr),
    (∀ off, off ≠ 0 → off ≠ 1 → exec (.rdOther off) s = .next s) ∧
    (a &&& ~~~s.cfg.busMask = s.cfg.busBase → a &&& s.cfg.busMask ≠ 0 → a &&& s.cfg.busMask ≠ 1 → ∃ t : State,
      exec (.addrMatch a .read) s = .next t ∧
      t = { s with
            scr := { s.scr with latchedAddress := a &&& s.cfg.busMask, direction := .read, offset := 0, size := 0 }
            busError := false
            trace := s.trace ++ [.addressAck] } ∧
      ∀ past, exec .byteReadyRd { t with trace := past } =
        .next { t with trace := past ++ [.condition .overread, .data 0xFF] })

/-- R73, R97, R264 (b), R233 (the spec's decisions D13, D15, D20): an address phase for an address the device does not
answer is refused (assumption log 8), also where it comes as an interrupt between the reads of a `GET_COMMAND`. -/
def Obligations.AddressesOfOtherDevicesAreRefused : Prop :=
  (∀ (s : State) (a : Addr) (d : Direction), a &&& ~~~s.cfg.busMask ≠ s.cfg.busBase →
    exec (.addrMatch a d) s = .refused (.addressNotMatched a)) ∧
  (∀ (s : State) (a : Addr) (d : Direction), RaceItem.interrupt (.addrMatch a d) ∈ s.race →
    a &&& ~~~s.cfg.busMask ≠ s.cfg.busBase →
    ∃ (a' : Addr) (d' : Direction), RaceItem.interrupt (.addrMatch a' d') ∈ s.race ∧
      a' &&& ~~~s.cfg.busMask ≠ s.cfg.busBase ∧ exec .getCommand s = .refused (.addressNotMatched a'))

/-- R174 (the spec's decision D20): the next reply byte; past the reply the sentinel and the condition `Overread`; in an
abandoned transaction the sentinel. -/
def Obligations.ByteReadyRdPopsTheReply : Prop :=
  ∀ s : State,
    (s.busError = true → exec .byteReadyRd s = .next { s with trace := s.trace ++ [.data 0xFF] }) ∧
    (s.busError = false → s.scr.size ≤ s.scr.offset →
      exec .byteReadyRd s = .next { s with trace := s.trace ++ [.condition .overread, .data 0xFF] }) ∧
    (s.busError = false → s.scr.offset < s.scr.size → ∀ h : s.scr.offset < 20,
      exec .byteReadyRd s = .next
        { s with scr := { s.scr with offset := s.scr.offset + 1 }
                 trace := s.trace ++ [.data s.scr.buffer[s.scr.offset]] })

/-- R176 (the spec's decisions D17, D18, D20): a byte is stored and, when it makes `size` the width of the latched
fixed-width register, committed; past the capacity it is dropped under the condition `Overwrite`; in an abandoned
transaction it is dropped; it is acknowledged always. -/
def Obligations.ByteReadyWrStoresAndCommits : Prop :=
  ∀ (s : State) (b : Byte),
    (s.busError = true → exec (.byteReadyWr b) s = .next { s with trace := s.trace ++ [.ack] }) ∧
    (s.busError = false → 20 ≤ s.scr.size →
      exec (.byteReadyWr b) s = .next { s with trace := s.trace ++ [.condition .overwrite, .ack] }) ∧
    (s.busError = false → s.scr.size < 20 → ∃ (buf : Vector Byte 20) (regs : RegisterFile),
      (∀ (i : Nat) (h : i < 20), buf[i] = if i = s.scr.size then b else s.scr.buffer[i]) ∧
      regs = (if s.scr.latchedAddress = 0 ∧ s.scr.size = 3 then
                { s.regs with value := buf[0] ++ buf[1] ++ buf[2] ++ buf[3] }
              else if s.scr.latchedAddress = 1 ∧ s.scr.size = 3 then
                { s.regs with clickCount := buf[0] ++ buf[1] ++ buf[2] ++ buf[3] }
              else if s.scr.latchedAddress = 3 ∧ s.scr.size = 0 then { s.regs with illumType := b }
              else s.regs) ∧
      exec (.byteReadyWr b) s = .next
        { s with scr := { s.scr with buffer := buf, size := s.scr.size + 1 }, regs := regs,
                 trace := s.trace ++ [.ack] })

/-- R177, R178: the commit of `value` and of `click_count` from the first four buffered bytes, the first one in bits
31:24, overwriting; at the fourth byte of a write to offset 0 or 1 (R176, with the spec's decisions D17, D18, D20), and
run alone, in any state, which is assumption log 7. -/
def Obligations.FourByteWritesOverwrite : Prop :=
  ∀ s : State,
    exec .wrValue s = .next
      { s with regs := { s.regs with
          value := s.scr.buffer[0] ++ s.scr.buffer[1] ++ s.scr.buffer[2] ++ s.scr.buffer[3] } } ∧
    exec .wrClick s = .next
      { s with regs := { s.regs with
          clickCount := s.scr.buffer[0] ++ s.scr.buffer[1] ++ s.scr.buffer[2] ++ s.scr.buffer[3] } } ∧
    (s.busError = false → s.scr.size = 3 → ∀ b : Byte, ∃ t : State,
      exec (.byteReadyWr b) s = .next t ∧ t.scr.size = 4 ∧
      (s.scr.latchedAddress = 0 →
        t.regs = { s.regs with value := s.scr.buffer[0] ++ s.scr.buffer[1] ++ s.scr.buffer[2] ++ b }) ∧
      (s.scr.latchedAddress = 1 →
        t.regs = { s.regs with clickCount := s.scr.buffer[0] ++ s.scr.buffer[1] ++ s.scr.buffer[2] ++ b }))

/-- R183 (the spec's decisions D18, D30): the commit of `illum_type` from the first byte; at the first byte of a write to
offset 3 (R176, with the spec's decisions D17, D18, D20), and run alone, in any state, which is assumption log 7; a
second byte commits nothing. -/
def Obligations.WriteOfIllumTypeTakesTheFirstByte : Prop :=
  ∀ s : State,
    exec .wrIllumType s = .next { s with regs := { s.regs with illumType := s.scr.buffer[0] } } ∧
    (s.busError = false → s.scr.latchedAddress = 3 → s.scr.size = 0 → ∀ b b' : Byte, ∃ t u : State,
      exec (.byteReadyWr b) s = .next t ∧ t.regs = { s.regs with illumType := b } ∧
      exec (.byteReadyWr b') t = .next u ∧ u.regs = t.regs ∧ u.scr.size = 2)

/-- R179, R184 (the spec's decision D19): `STOP` commits the buffered bytes, zero-padded, for a write to offset 4 that
was not abandoned, and changes nothing in any other state. That the register access run alone, in any state, does the
same commit is assumption log 7. -/
def Obligations.StopCommitsIllumDataOnly : Prop :=
  ∀ s : State, ∃ data : Vector Byte 20,
    (∀ (i : Nat) (h : i < 20), data[i] = if i < s.scr.size then s.scr.buffer[i] else 0) ∧
    exec .wrIllumData s = .next { s with regs := { s.regs with illumData := data } } ∧
    exec .stop s = .next
      (if s.busError = false ∧ s.scr.direction = .write ∧ s.scr.latchedAddress = 4 then
        { s with regs := { s.regs with illumData := data } } else s)

/-- R185 (an inference of the spec): a write to an offset that names no register is buffered and never committed. That
the register access run alone, in any state, changes nothing is assumption log 7. -/
def Obligations.WriteOfOtherOffsetsNeverCommits : Prop :=
  ∀ s : State,
    (∀ off, off ≠ 0 → off ≠ 1 → off ≠ 3 → off ≠ 4 → exec (.wrOther off) s = .next s) ∧
    (s.scr.latchedAddress ≠ 0 → s.scr.latchedAddress ≠ 1 → s.scr.latchedAddress ≠ 3 → s.scr.latchedAddress ≠ 4 →
      (∀ b, ∃ t, exec (.byteReadyWr b) s = .next t ∧ t.regs = s.regs) ∧ exec .stop s = .next s)

/-- R180 (the spec's decision D20): the error event sets the flag, under the condition `BusError`; registers and scratch
stay as they are. -/
def Obligations.BusErrorOnlySetsTheFlag : Prop :=
  ∀ s : State, exec .busError s = .next { s with busError := true, trace := s.trace ++ [.condition .busError] }

/-- R180 (the spec's decision D20): until the next address phase nothing a driver delivers changes a register or the
scratch, and every byte read is `0xFF`; the next address phase clears the flag. -/
def Obligations.AbandonedTransactionHasNoEffect : Prop :=
  ∀ (s : State) (ops : List Instr), s.busError = true →
    (∀ i ∈ ops, i.format = .busev ∧ ∀ a d, i ≠ .addrMatch a d) →
    ∃ t : State, runOps ops s = .next t ∧ t = { s with trace := t.trace } ∧
      (∀ b, Output.data b ∈ t.trace.drop s.trace.length → b = 0xFF) ∧
      ∀ a d, a &&& ~~~s.cfg.busMask = s.cfg.busBase → ∃ u, exec (.addrMatch a d) t = .next u ∧ u.busError = false

/-- R186 (an inference of the spec; the source's own testable property): a written value is read back exactly once. -/
def Obligations.WrittenValueIsReadBackOnce : Prop :=
  ∀ (s : State) (v : Word), s.cfg.BusOk →
    (∃ t u w : State,
      runOps (busWrite s.cfg 0 (be32 v)) s = .next t ∧ t.regs = { s.regs with value := v } ∧
      runOps (busRead s.cfg 0 4) t = .next u ∧ u.trace = t.trace ++ .addressAck :: (be32 v).map .data ∧
      u.regs = { s.regs with value := 0 } ∧
      runOps (busRead s.cfg 0 4) u = .next w ∧
      w.trace = u.trace ++ .addressAck :: List.replicate 4 (.data 0) ∧ w.regs = u.regs) ∧
    (∃ t u w : State,
      runOps (busWrite s.cfg 1 (be32 v)) s = .next t ∧ t.regs = { s.regs with clickCount := v } ∧
      runOps (busRead s.cfg 1 4) t = .next u ∧ u.trace = t.trace ++ .addressAck :: (be32 v).map .data ∧
      u.regs = { s.regs with clickCount := 0 } ∧
      runOps (busRead s.cfg 1 4) u = .next w ∧
      w.trace = u.trace ++ .addressAck :: List.replicate 4 (.data 0) ∧ w.regs = u.regs)

/-- R66: a write shorter than the register's width commits nothing; its bytes stay in the buffer. -/
def Obligations.ShortWritesCommitNothing : Prop :=
  ∀ (s : State) (off : Addr) (bytes : List Byte), s.cfg.BusOk →
    ((off = 0 ∨ off = 1) ∧ bytes.length < 4) ∨ (off = 3 ∧ bytes = []) →
    ∃ t : State, runOps (busWrite s.cfg off bytes) s = .next t ∧ t.regs = s.regs ∧ t.scr.latchedAddress = off ∧
      t.scr.size = bytes.length ∧ t.scr.buffer.toList.take bytes.length = bytes

/-- R67, R184 (an inference and a decision D19 of the spec): a write of the register's width or longer commits once, from
the first bytes; bytes past the capacity are acknowledged and dropped. -/
def Obligations.LongWritesCommitOnce : Prop :=
  ∀ (s : State) (off : Addr) (bytes : List Byte), s.cfg.BusOk →
    ((off = 0 ∨ off = 1) ∧ 4 ≤ bytes.length) ∨ (off = 3 ∧ 1 ≤ bytes.length) ∨ off = 4 →
    ∃ t : State, runOps (busWrite s.cfg off bytes) s = .next t ∧
      t.scr.size = min 20 bytes.length ∧ t.scr.buffer.toList.take (min 20 bytes.length) = bytes.take 20 ∧
      (t.trace.drop s.trace.length).count .ack = bytes.length ∧
      (off = 0 → t.regs = { s.regs with value := fromBe (bytes.getD 0 0) (bytes.getD 1 0) (bytes.getD 2 0) (bytes.getD 3 0) }) ∧
      (off = 1 → t.regs =
        { s.regs with clickCount := fromBe (bytes.getD 0 0) (bytes.getD 1 0) (bytes.getD 2 0) (bytes.getD 3 0) }) ∧
      (off = 3 → t.regs = { s.regs with illumType := bytes.getD 0 0 }) ∧
      (off = 4 → t.regs = { s.regs with illumData := t.regs.illumData } ∧
        t.regs.illumData.toList = bytes.take 20 ++ List.replicate (20 - bytes.length) 0)

/-- R100: a read at an offset other than 0 and 1 gives `0xFF` for every byte and changes no register; a write at an
offset that names no register is acknowledged and buffered, visible to `GET_COMMAND`, and nothing is committed; neither
sets `bus_error`. The address phase, the cap of 20 and the accessor are the spec's decisions D15, D17, D20, D21, D22
(assumption logs 5, 25); that each byte read shows `Overread` is assumption log 27. -/
def Obligations.UnusedSelectorsHaveNoEffect : Prop :=
  ∀ (s : State) (off : Addr), s.cfg.BusOk → off &&& s.cfg.busMask = off →
    (off ≠ 0 → off ≠ 1 → ∀ n, ∃ t : State, runOps (busRead s.cfg off n) s = .next t ∧ t.regs = s.regs ∧
      t.scr.size = 0 ∧ t.busError = false ∧
      t.trace = s.trace ++ .addressAck :: (List.replicate n [Output.condition .overread, .data 0xFF]).flatten) ∧
    (off ≠ 0 → off ≠ 1 → off ≠ 3 → off ≠ 4 → ∀ bytes, ∃ t : State, runOps (busWrite s.cfg off bytes) s = .next t ∧
      t.regs = s.regs ∧ t.busError = false ∧ t.scr.latchedAddress = off ∧
      t.scr.buffer.toList.take t.scr.size = bytes.take 20 ∧
      (t.trace.drop s.trace.length).count .ack = bytes.length ∧
      (s.undisturbed → exec .getCommand t = .next
        { t with races := t.races.tail, trace := t.trace ++ [.command off (bytes.take 20)] }))

/-! ### GET_COMMAND -/

/-- R182 (the spec's decision D22): with no BUS operation between its reads, `GET_COMMAND` returns
`(latched_address, buffer[0..size))`, waits for nothing and changes nothing. -/
def Obligations.GetCommandReadsTheScratch : Prop :=
  ∀ s : State, s.undisturbed →
    exec .getCommand s = .next
      { s with races := s.races.tail
               trace := s.trace ++ [.command s.scr.latchedAddress (s.scr.buffer.toList.take s.scr.size)] }

/-- R79, R182 (the spec's decision D22): whatever interrupts (with addresses the device answers) stand between its reads,
the call itself writes nothing; its address, its length and each of its bytes are what the scratch held at some moment of
the call. -/
def Obligations.GetCommandReadsAreSingleReads : Prop :=
  ∀ s : State, s.raceInRange → ∃ (u : State) (addr : Addr) (bytes : List Byte),
    runOps ((interruptsOf s.race).map Interrupt.toInstr) { s with races := s.races.tail } = .next u ∧
    exec .getCommand s = .next { u with trace := u.trace ++ [.command addr bytes] } ∧
    (∃ (pre : List RaceItem) (m : State), pre <+: s.race ∧
      runOps ((interruptsOf pre).map Interrupt.toInstr) { s with races := s.races.tail } = .next m ∧
      addr = m.scr.latchedAddress) ∧
    (∃ (pre : List RaceItem) (m : State), pre <+: s.race ∧
      runOps ((interruptsOf pre).map Interrupt.toInstr) { s with races := s.races.tail } = .next m ∧
      bytes.length = min m.scr.size 20) ∧
    ∀ (j : Nat) (b : Byte), bytes[j]? = some b → ∃ (pre : List RaceItem) (m : State), pre <+: s.race ∧
      runOps ((interruptsOf pre).map Interrupt.toInstr) { s with races := s.races.tail } = .next m ∧
      m.scr.buffer[j]? = some b

/-- The torn read of R79 and R269 (the spec's decision D22) is a behaviour of the model: the address of the old
transaction beside a byte of the new one. -/
def Obligations.TornCommandIsPossible : Prop :=
  ∃ s t : State, s.scr.latchedAddress = 0 ∧ s.scr.buffer.toList.take s.scr.size = [0, 0, 1, 0] ∧
    exec .getCommand s = .next t ∧ t.scr.latchedAddress = 1 ∧ t.trace.getLast? = some (.command 0 [0xAA])

/-! ### Agents and contexts -/

/-- R78 (an inference of the spec): an EDGE operation and a BUS operation commute; both complete unless the bus operation
is an address phase for another device, which either order refuses. -/
def Obligations.EdgeAndBusOperationsCommute : Prop :=
  ∀ (e b : Instr) (s : State), e.agent = .edge → b.agent = .bus →
    runOps [e, b] s = runOps [b, e] s ∧ (b.inRange s.cfg = true → ∃ t : State, runOps [e, b] s = .next t)

/-- R40: which agent may write what. By how much is R21 to R23, R122, R123 and R124 to R126 (with the spec's decisions D2
to D5 and D23; assumption log 20): `increment` by one modulo 2^32, `clicks` by one modulo `2^CLICK_W`, `lockout` to
`LOCKOUT_TICKS` or down by one, a drain to 0. A register access run alone is assumption log 7. For HOST no interrupt
stands between the reads of a `GET_COMMAND`: what a preempting interrupt writes is the interrupt's. The trace, the draws
and the races are the model's own fields. -/
def Obligations.AgentsWriteOnlyTheirOwnState : Prop :=
  ∀ (i : Instr) (s t : State), exec i s = .next t →
    (i.agent = .edge → t = { s with dec := t.dec } ∧
      (t.dec.increment = s.dec.increment ∨ t.dec.increment = s.dec.increment + 1 ∨
        t.dec.increment = s.dec.increment - 1) ∧
      (t.dec.clicks = s.dec.clicks ∨ t.dec.clicks = (s.dec.clicks + 1) % 2 ^ s.cfg.clickWidth) ∧
      (t.dec.lockout = s.dec.lockout ∨ t.dec.lockout = s.cfg.lockoutTicks)) ∧
    (i.agent = .bus → t = { s with regs := t.regs, scr := t.scr, busError := t.busError, trace := t.trace }) ∧
    (i.agent = .sched →
      t = { s with
            dec := { s.dec with lockout := t.dec.lockout }
            disp := { s.disp with scanPhase := t.disp.scanPhase, scanCycle := t.disp.scanCycle,
                                  dwellCounter := t.disp.dwellCounter, out := t.disp.out, dir := t.disp.dir }
            trace := t.trace } ∧
      (t.dec.lockout = s.dec.lockout ∨ t.dec.lockout + 1 = s.dec.lockout)) ∧
    (i.agent = .host → s.undisturbed →
      t = { s with
            dec := { s.dec with increment := t.dec.increment, clicks := t.dec.clicks }
            disp := { s.disp with intensity := t.disp.intensity, bitplane := t.disp.bitplane, dirbits := t.disp.dirbits }
            host := t.host
            races := t.races
            draws := t.draws
            trace := t.trace } ∧
      (t.dec.increment = s.dec.increment ∨ t.dec.increment = 0) ∧ (t.dec.clicks = s.dec.clicks ∨ t.dec.clicks = 0))

/-- R188 (the spec's decision D1): what a Responder operation does depends on nothing of the decoder and the display, and
what a Decoder or Display operation does on nothing of the responder. `GET_COMMAND` is meant with no interrupt between
its reads: an edge among them is the decoder's operation. -/
def Obligations.ResponderIsIsolated : Prop :=
  (∀ (i : Instr) (s : State) (d : Decoder) (x : Display),
    i.agent = .bus ∨ (i = .getCommand ∧ s.undisturbed) →
    exec i { s with dec := d, disp := x } = mapNext (fun t => { t with dec := d, disp := x }) (exec i s)) ∧
  (∀ (i : Instr) (s : State) (r : RegisterFile) (c : Scratch) (e : Bool),
    i.agent = .edge ∨ i.agent = .sched ∨ i = .drainIncrement ∨ i = .drainClicks ∨ (∃ pos v, i = .setLed pos v) →
    exec i { s with regs := r, scr := c, busError := e } =
      mapNext (fun t => { t with regs := r, scr := c, busError := e }) (exec i s))

/-- The trace is what the block shows, never what it reads (R232; assumption log 6). -/
def Obligations.TraceIsNeverRead : Prop :=
  ∀ (i : Instr) (s : State) (past : List Output),
    exec i (s.withPast past) = mapNext (fun t => t.withPast past) (exec i s)

/-- Everything shown stays shown, and no operation changes a parameter (R8; assumption logs 3 and 6). -/
def Obligations.ParametersNeverChange : Prop :=
  ∀ (i : Instr) (s t : State), exec i s = .next t → t.cfg = s.cfg ∧ ∃ shown, t.trace = s.trace ++ shown

/-- R245, R83 (an inference of the spec): every operation of the block completes in one step and none waits, but for what
R233 has the model refuse: a position of `SET_LED` that has no meaning (R142), an address the device does not answer. -/
def Obligations.EveryBlockOperationCompletes : Prop :=
  ∀ (i : Instr) (s : State), i ≠ .ctrlTick → i.inRange s.cfg = true → (i = .getCommand → s.raceInRange) →
    ∃ t : State, exec i s = .next t

/-! ### Reset and invariants -/

/-- R260 (the spec's decision D14): every stored element is zero, the direction is `WRITE`, all pins are
high-impedance. The host's values and the empty model fields are the model's choice (assumption logs 1, 5, 6, 10, 11). -/
def Obligations.ResetLeavesEverythingZero : Prop :=
  ∀ c : Config,
    (State.resetWith c).cfg = c ∧
    (State.resetWith c).dec.increment = 0 ∧ (State.resetWith c).dec.clicks = 0 ∧ (State.resetWith c).idle = true ∧
    (State.resetWith c).disp.intensity = List.replicate c.nLeds 0 ∧
    (State.resetWith c).disp.bitplane = List.replicate c.nLeds 0 ∧
    (∀ ph b k, tableBit (State.resetWith c).disp.dirbits ph b k = false) ∧
    (State.resetWith c).disp.scanPhase = 0 ∧ (State.resetWith c).disp.scanCycle = 0 ∧
    (State.resetWith c).disp.dwellCounter = 0 ∧
    (State.resetWith c).disp.out = List.replicate c.nPins false ∧
    (State.resetWith c).disp.dir = List.replicate c.nPins false ∧
    (State.resetWith c).pins = List.replicate c.nPins .Z ∧ (State.resetWith c).active = false ∧
    (State.resetWith c).regs.value = 0 ∧ (State.resetWith c).regs.clickCount = 0 ∧
    (State.resetWith c).regs.illumType = 0 ∧
    (State.resetWith c).regs.illumData.toList = List.replicate 20 0 ∧
    (State.resetWith c).scr.latchedAddress = 0 ∧ (State.resetWith c).scr.direction = .write ∧
    (State.resetWith c).scr.buffer.toList = List.replicate 20 0 ∧ (State.resetWith c).scr.offset = 0 ∧
    (State.resetWith c).scr.size = 0 ∧ (State.resetWith c).busError = false ∧
    State.reset = State.resetWith referenceConfig

/-- The invariant holds at reset, for every instance that meets R8 and for the reference instance of R9 (the spec's
decisions D8, D14; the host's values are assumption log 10). -/
def Obligations.ResetMeetsTheInvariant : Prop :=
  (∀ c : Config, c.Wf → (State.resetWith c).Inv ∧ (State.resetWith c).ReplySizeOk) ∧ State.reset.Inv

/-- The invariant (R22, R23, R26 to R29, R31, R35, R187, R202) is kept by every step whose next delivered frame is an
operation of an agent (R90: a register access is "not an operation of its own"; assumption log 7). -/
def Obligations.StepKeepsTheInvariant : Prop :=
  ∀ s t : State, s.Inv → (∀ f ∈ s.inbox.head?, ∀ i, decode f = some i → i.isOperation = true) →
    step s = .next t → t.Inv

/-- R187 (an inference of the spec): in read direction `size` is 0 or 4, as long as the driver keeps its duty R264 (a). -/
def Obligations.ReplySizeIsZeroOrFour : Prop :=
  ∀ (i : Instr) (s t : State), s.ReplySizeOk → i.isOperation = true → i.keepsDirection s.scr.direction = true →
    s.undisturbed → exec i s = .next t → t.ReplySizeOk

/-! ### The host (surrounding software). Its order of sub-steps is free (assumption log 11), so these hold for every
order. "No command" is a scratch the host does not act on (R209), the reset scratch among them. -/

/-- R203: a host tick completes, whatever the free values and whatever interrupts preempt its `GET_COMMAND`; three LEDs let every animation type be shown in ADJUST mode
(R211, R142). -/
def Obligations.CtrlTickCompletes : Prop :=
  ∀ s : State, s.Inv → 3 ≤ s.cfg.nLeds → s.raceInRange → ∃ t : State, exec .ctrlTick s = .next t

/-- R205: each NORMAL tick adds `|speed|`, at least 1, to the counter; at 100000 the counter restarts and exactly one frame
is advanced (R206): speed folded, focus moved by the sign of the speed, increment taken. -/
def Obligations.NormalTickPacesTheFrames : Prop :=
  ∀ s : State, s.Inv → s.host.mode = .normal → s.dec.clicks = 0 → s.undisturbed → s.noCommand →
    ∃ t : State, exec .ctrlTick s = .next t ∧ t.host.mode = .normal ∧
      (s.host.counter + max 1 s.host.speed.natAbs < 100000 →
        t.host.counter = s.host.counter + max 1 s.host.speed.natAbs ∧ t.host.speed = s.host.speed ∧
        t.host.focus = s.host.focus ∧ t.disp = s.disp ∧ t.dec = s.dec) ∧
      (100000 ≤ s.host.counter + max 1 s.host.speed.natAbs →
        t.host.counter = 0 ∧ t.host.speed = s.host.speed + s.dec.increment.toInt + s.host.injected ∧
        t.host.injected = 0 ∧ t.dec.increment = 0 ∧
        (s.host.animationType < 2 →
          (t.host.focus : Int) = (s.host.focus + t.host.speed.sign) % (s.cfg.nLeds : Int)))

/-- R213 (an inference of the spec; the source's scenario, with `counter = 0` at the start and the increments pending in
the decoder): 25000 NORMAL ticks at speed 4 add 4 each, and the last one advances one frame: speed 7, focus 1 at full,
the two LEDs behind it at the partial level, every other LED dark. With no command and no interrupt in the ticks'
`GET_COMMAND`s. -/
def Obligations.ThreeIncrementsAdvanceOneFrame : Prop :=
  ∀ s : State, s.Inv → 3 ≤ s.cfg.nLeds → s.host.mode = .normal → s.host.animationType = 0 → s.host.speed = 4 →
    s.host.focus = 0 → s.host.counter = 0 → s.host.injected = 0 → s.dec.increment = 3 → s.dec.clicks = 0 →
    s.noCommand → (∀ r ∈ s.races, r = []) →
    (∀ k, k < 25000 → ∃ u : State, runOps (List.replicate k .ctrlTick) s = .next u ∧ u.host.counter = 4 * k ∧
      u.host.speed = 4 ∧ u.host.focus = 0 ∧ u.dec.increment = 3 ∧ u.disp = s.disp) ∧
    ∃ t : State, runOps (List.replicate 25000 .ctrlTick) s = .next t ∧ t.host.counter = 0 ∧ t.host.speed = 7 ∧
      t.host.focus = 1 ∧ t.dec.increment = 0 ∧
      ∀ pos, pos < s.cfg.nLeds → t.disp.intensity.getD pos 0 =
        if pos = 1 then 0xFF else if pos = 0 ∨ pos + 1 = s.cfg.nLeds then s.cfg.partialLevel else 0

/-- R207, R208: a frame of type 0 shows the focus at full, the two LEDs behind it in the direction of travel at partial
intensity, and nothing else; a frame of type 1 shows two LEDs at partial intensity on each side. -/
def Obligations.CometFramesShowFocusAndTail : Prop :=
  ∀ s : State, s.Inv → s.host.mode = .normal → s.host.animationType < 2 → s.dec.clicks = 0 → s.undisturbed →
    s.noCommand → 100000 ≤ s.host.counter + max 1 s.host.speed.natAbs →
    ∃ t : State, exec .ctrlTick s = .next t ∧
      (s.host.animationType = 0 → ∀ pos, pos < s.cfg.nLeds → t.disp.intensity.getD pos 0 =
        if pos = t.host.focus then 0xFF
        else if (pos : Int) = (t.host.focus - t.host.speed.sign) % (s.cfg.nLeds : Int) ∨
          (pos : Int) = (t.host.focus - 2 * t.host.speed.sign) % (s.cfg.nLeds : Int) then s.cfg.partialLevel
        else 0) ∧
      (s.host.animationType = 1 → ∀ pos, pos < s.cfg.nLeds → t.disp.intensity.getD pos 0 =
        if pos = t.host.focus then 0xFF
        else if (pos : Int) = ((t.host.focus : Int) + 1) % s.cfg.nLeds ∨ (pos : Int) = ((t.host.focus : Int) + 2) % s.cfg.nLeds ∨
          (pos : Int) = ((t.host.focus : Int) - 1) % s.cfg.nLeds ∨ (pos : Int) = ((t.host.focus : Int) - 2) % s.cfg.nLeds
        then s.cfg.partialLevel
        else 0)

/-- R210: a frame of type 2 ends with the focus at full; every other LED is dark or at the dim level, which ones is open
(assumption log 15). -/
def Obligations.SweepFrameEndsWithTheFocus : Prop :=
  ∀ s : State, s.Inv → s.host.mode = .normal → s.host.animationType = 2 → s.dec.clicks = 0 → s.undisturbed →
    s.noCommand → 100000 ≤ s.host.counter + max 1 s.host.speed.natAbs →
    ∃ t : State, exec .ctrlTick s = .next t ∧ t.host.focus < s.cfg.nLeds ∧ t.host.sweep ≤ 2 * s.cfg.nLeds ∧
      t.disp.intensity.getD t.host.focus 0 = 0xFF ∧
      ∀ pos, pos < s.cfg.nLeds → pos ≠ t.host.focus →
        t.disp.intensity.getD pos 0 = 0 ∨ t.disp.intensity.getD pos 0 = Config.dimLevel

/-- R211: an ADJUST tick takes the pending increment into the animation type modulo 3, also for negative ones, and shows
only the LED of the type. -/
def Obligations.AdjustTickCyclesTheAnimation : Prop :=
  ∀ s : State, s.Inv → 3 ≤ s.cfg.nLeds → s.host.mode = .adjust → s.dec.clicks = 0 → s.undisturbed →
    s.noCommand →
    ∃ t : State, exec .ctrlTick s = .next t ∧ t.dec.increment = 0 ∧ t.host.mode = .adjust ∧
      (t.host.animationType : Int) = (s.host.animationType + s.dec.increment.toInt) % 3 ∧
      ∀ pos, pos < s.cfg.nLeds →
        t.disp.intensity.getD pos 0 = if pos = t.host.animationType then 0xFF else 0

/-- R204: one drained click toggles the mode exactly once and takes the click; on the way to NORMAL, with no frame due,
every LED ends dark. -/
def Obligations.ClickTogglesTheModeOnce : Prop :=
  ∀ s : State, s.Inv → 3 ≤ s.cfg.nLeds → s.dec.clicks = 1 → s.undisturbed → s.noCommand →
    ∃ t : State, exec .ctrlTick s = .next t ∧ t.dec.clicks = 0 ∧ t.host.mode ≠ s.host.mode ∧
      (s.host.mode = .adjust → s.host.counter + max 1 s.host.speed.natAbs < 100000 →
        ∀ pos, pos < s.cfg.nLeds → t.disp.intensity.getD pos 0 = 0)

/-- R209: a command the host sees for the first time. Four bytes at `value` are an injected increment, taken by the mode's
handler (in NORMAL held for the next frame: assumption log 14); a `click` command toggles the mode whatever its payload;
another length at `value` is the condition `MalformedCommand` and has no effect. That the host knows a first sight by a
differing register, or by other bytes at `value`, is assumption log 13. -/
def Obligations.FirstSeenCommandIsDispatched : Prop :=
  ∀ s : State, s.Inv → 3 ≤ s.cfg.nLeds → s.dec.clicks = 0 → s.undisturbed →
    s.commandDiffers →
    s.host.counter + max 1 s.host.speed.natAbs < 100000 →
    ∃ t : State, exec .ctrlTick s = .next t ∧
      (s.scr.latchedAddress = 0 → s.scr.size = 4 → s.host.mode = .normal →
        t.host.mode = .normal ∧ t.host.injected = s.host.injected +
          (s.scr.buffer[0] ++ s.scr.buffer[1] ++ s.scr.buffer[2] ++ s.scr.buffer[3]).toInt ∧ t.dec = s.dec) ∧
      (s.scr.latchedAddress = 0 → s.scr.size = 4 → s.host.mode = .adjust →
        t.host.mode = .adjust ∧ (t.host.animationType : Int) = (s.host.animationType + s.dec.increment.toInt +
          (s.scr.buffer[0] ++ s.scr.buffer[1] ++ s.scr.buffer[2] ++ s.scr.buffer[3]).toInt) % 3) ∧
      (s.scr.latchedAddress = 0 → s.scr.size ≠ 4 →
        t.host.mode = s.host.mode ∧ t.host.injected = s.host.injected ∧
        Output.condition .malformedCommand ∈ t.trace.drop s.trace.length) ∧
      (s.scr.latchedAddress = 1 → t.host.mode ≠ s.host.mode)
end

