-- ==== Sys2Proof/Laws/Bits.lean ====
section
/-! SUPPORT. Bit vectors of width `P`, the direction-bit tables and pin states: one lemma per accessor. -/

namespace Sys2Proof.Machine

theorem zeroBits_getD (p k : Nat) : (zeroBits p).getD k false = false := by
  simp [zeroBits, List.getD_eq_getElem?_getD, List.getElem?_replicate]; split <;> rfl

@[simp] theorem zeroBits_length (p : Nat) : (zeroBits p).length = p := by simp [zeroBits]

theorem range_map_getD {α : Type} (f : Nat → α) (p k : Nat) (d : α) :
    ((List.range p).map f).getD k d = if k < p then f k else d := by
  by_cases h : k < p <;> simp [List.getD_eq_getElem?_getD, h]

theorem onehot_getD (p k i : Nat) : (onehot p k).getD i false = (decide (i < p) && decide (i = k)) := by
  rw [onehot, range_map_getD]
  by_cases h : i < p <;> simp [h]; rfl

@[simp] theorem onehot_length (p k : Nat) : (onehot p k).length = p := by simp [onehot]

theorem orBits_getD (p : Nat) (x y : Bits) (i : Nat) :
    (orBits p x y).getD i false = (decide (i < p) && (x.getD i false || y.getD i false)) := by
  rw [orBits, range_map_getD]
  by_cases h : i < p <;> simp [h]

@[simp] theorem orBits_length (p : Nat) (x y : Bits) : (orBits p x y).length = p := by simp [orBits]

@[simp] theorem pinLevels_length (p : Nat) (dir out : Bits) : (pinLevels p dir out).length = p := by
  simp [pinLevels]

theorem pinAt_eq_H {dir out : Bits} {k : Nat} :
    pinAt dir out k = .H ↔ dir.getD k false = true ∧ out.getD k false = true := by
  unfold pinAt; cases dir.getD k false <;> cases out.getD k false <;> simp [pinLevel]

theorem pinAt_eq_L {dir out : Bits} {k : Nat} :
    pinAt dir out k = .L ↔ dir.getD k false = true ∧ out.getD k false = false := by
  unfold pinAt; cases dir.getD k false <;> cases out.getD k false <;> simp [pinLevel]

/-- With no pin an output, every pin is high-impedance. -/
theorem pinLevels_zeroBits (p : Nat) (out : Bits) : pinLevels p (zeroBits p) out = List.replicate p .Z := by
  rw [pinLevels, List.eq_replicate_iff]
  refine ⟨by simp, fun x hx => ?_⟩
  obtain ⟨k, -, rfl⟩ := List.mem_map.1 hx
  simp only [pinAt, zeroBits_getD, pinLevel]

/-- A pin state in which only one pin can be `H` drives at most one. -/
theorem drivenHigh_le_one {p ph : Nat} {dir out : Bits} (h : ∀ k, pinAt dir out k = .H → k = ph) :
    drivenHigh (pinLevels p dir out) ≤ 1 := by
  unfold drivenHigh pinLevels
  induction p with
  | zero => simp
  | succ n ih =>
    rw [List.range_succ, List.map_append, List.count_append]
    by_cases hn : pinAt dir out n = .H
    · have : List.count PinLevel.H ((List.range n).map (pinAt dir out)) = 0 := by
        rw [List.count_eq_zero]
        intro hm
        obtain ⟨k, hk, hH⟩ := List.mem_map.1 hm
        have h1 := h k hH
        have h2 := h n hn
        simp at hk; omega
      simp [this, hn]
    · simp [hn]; simpa using ih

/-- What one `SET_LED` does to the tables (R141): one bit in each plane of the source's row. -/
theorem tableBit_writePlanes (t : List (List Bits)) (src snk : Nat) (top : Byte) (ph b k : Nat)
    (hs : src < t.length → b < (t.getD src []).length → snk < ((t.getD src []).getD b []).length) :
    tableBit (writePlanes t src snk top) ph b k =
      if ph = src ∧ k = snk ∧ src < t.length ∧ b < (t.getD src []).length then top.getLsbD b
      else tableBit t ph b k := by
  simp only [tableBit, writePlanes, List.getD_eq_getElem?_getD, List.getElem?_modify] at *
  by_cases h1 : ph = src
  · subst h1
    by_cases h2 : ph < t.length
    · by_cases h3 : b < (t[ph]).length
      · simp only [h2, List.getElem?_eq_getElem, Option.getD_some, h3, true_implies] at hs
        by_cases h4 : k = snk
        · subst h4; simp [h2, h3, hs]
        · simp [h2, h3, h4, Ne.symm h4]
      · simp [h2, h3]
    · simp [h2]
  · simp [h1, Ne.symm h1]

theorem writePlanes_length (t : List (List Bits)) (src snk : Nat) (top : Byte) :
    (writePlanes t src snk top).length = t.length := by simp [writePlanes]

/-- The tables keep their shape. -/
theorem writePlanes_shaped {t : List (List Bits)} {c p : Nat}
    (h : ∀ row ∈ t, row.length = c ∧ ∀ bits ∈ row, bits.length = p) (src snk : Nat) (top : Byte) :
    ∀ row ∈ writePlanes t src snk top, row.length = c ∧ ∀ bits ∈ row, bits.length = p := by
  intro row hrow
  obtain ⟨i, hi, rfl⟩ := List.mem_iff_getElem.1 hrow
  have hi' : i < t.length := by simpa [writePlanes] using hi
  have hr := h _ (List.getElem_mem hi')
  simp only [writePlanes, List.getElem_modify]
  split
  · refine ⟨by simpa using hr.1, fun bits hb => ?_⟩
    obtain ⟨j, hj, rfl⟩ := List.mem_iff_getElem.1 hb
    have hj' : j < t[i].length := by simpa using hj
    simpa using hr.2 _ (List.getElem_mem hj')
  · exact hr

end Sys2Proof.Machine
end

