-- ==== Sys2Proof/Laws/Bytes.lean ====
section
/-! SUPPORT. Byte order and the transaction buffer. -/

namespace Sys2Proof.Machine

/-- Bit `i` of an assembled word is bit `i mod 8` of byte `i div 8`, counted from the last (R11). -/
theorem fromBe_getLsbD (b0 b1 b2 b3 : Byte) (i : Nat) :
    (fromBe b0 b1 b2 b3).getLsbD i =
      if i < 8 then b3.getLsbD i else if i < 16 then b2.getLsbD (i - 8) else if i < 24 then b1.getLsbD (i - 16)
      else b0.getLsbD (i - 24) := by
  simp only [fromBe, BitVec.getLsbD_append]
  by_cases h1 : i < 8
  · simp [h1]
  by_cases h2 : i < 16
  · simp [h1, h2, show i - 8 < 8 by omega]
  by_cases h3 : i < 24
  · simp [h1, h2, h3, show ¬ i - 8 < 8 by omega, show i - 8 - 8 = i - 16 by omega, show i - 16 < 8 by omega]
  · simp [h1, h2, h3, show ¬ i - 8 < 8 by omega, show ¬ i - 8 - 8 < 8 by omega, show i - 8 - 8 - 8 = i - 24 by omega]

/-- Big-endian assembly undoes big-endian disassembly (R62, R99). -/
theorem fromBe_be32 (w : Word) : fromBe (be32Byte w 0) (be32Byte w 1) (be32Byte w 2) (be32Byte w 3) = w := by
  apply BitVec.eq_of_getLsbD_eq
  intro i hi
  simp only [fromBe_getLsbD, be32Byte, BitVec.getLsbD_extractLsb']
  by_cases h1 : i < 8
  · simp [h1]
  by_cases h2 : i < 16
  · simp [h1, h2, show i - 8 < 8 by omega, show 8 + (i - 8) = i by omega]
  by_cases h3 : i < 24
  · simp [h1, h2, h3, show i - 16 < 8 by omega, show 16 + (i - 16) = i by omega]
  · simp [h1, h2, h3, show i - 24 < 8 by omega, show 24 + (i - 24) = i by omega]

/-- Big-endian disassembly undoes big-endian assembly. -/
theorem be32_fromBe (b0 b1 b2 b3 : Byte) : be32 (fromBe b0 b1 b2 b3) = [b0, b1, b2, b3] := by
  unfold be32
  congr 1
  · apply BitVec.eq_of_getLsbD_eq; intro i hi
    simp [be32Byte, fromBe_getLsbD, hi, show ¬ 24 + i < 8 by omega, show ¬ 24 + i < 16 by omega]
  congr 1
  · apply BitVec.eq_of_getLsbD_eq; intro i hi
    simp [be32Byte, fromBe_getLsbD, hi, show 16 + i < 24 by omega, show ¬ 16 + i < 8 by omega]
  congr 1
  · apply BitVec.eq_of_getLsbD_eq; intro i hi
    simp [be32Byte, fromBe_getLsbD, hi, show 8 + i < 16 by omega]
  congr 1
  · apply BitVec.eq_of_getLsbD_eq; intro i hi
    simp [be32Byte, fromBe_getLsbD, hi]

/-- The buffer after a reply is loaded: the four bytes, then the old ones (R172). -/
theorem storeBe32_toList (buf : Vector Byte 20) (w : Word) :
    (storeBe32 buf w).toList = be32 w ++ buf.toList.drop 4 := by
  obtain ⟨⟨l⟩, h⟩ := buf
  match l, h with
  | _ :: _ :: _ :: _ :: rest, _ => simp [storeBe32, be32]

theorem storeBe32_getElem (buf : Vector Byte 20) (w : Word) (i : Nat) (h : i < 20) :
    (storeBe32 buf w)[i] = if i < 4 then be32Byte w i else buf[i] := by
  have e : (storeBe32 buf w)[i] = ((((buf.setIfInBounds 0 (be32Byte w 0)).setIfInBounds 1
      (be32Byte w 1)).setIfInBounds 2 (be32Byte w 2)).setIfInBounds 3 (be32Byte w 3))[i] := rfl
  rw [e]
  simp only [Vector.getElem_setIfInBounds h]
  have : i = 0 ∨ i = 1 ∨ i = 2 ∨ i = 3 ∨ 4 ≤ i := by omega
  rcases this with rfl | rfl | rfl | rfl | h4
  · rfl
  · rfl
  · rfl
  · rfl
  · simp [show ¬ i < 4 by omega, show ¬ 3 = i by omega, show ¬ 2 = i by omega, show ¬ 1 = i by omega,
      show ¬ 0 = i by omega]

theorem loadBe32_storeBe32 (buf : Vector Byte 20) (w : Word) : loadBe32 (storeBe32 buf w) = w := by
  simp [loadBe32, storeBe32_getElem, fromBe_be32]

theorem zeroPadded_getElem (buf : Vector Byte 20) (n i : Nat) (h : i < 20) :
    (zeroPadded buf n)[i] = if i < n then buf[i] else 0 := by
  simp [zeroPadded]

theorem getD_eq_getElem (buf : Vector Byte 20) (i : Nat) (h : i < 20) : buf.getD i 0 = buf[i] := by
  simp [Vector.getD, h]

/-- A residue is below its modulus (R10). -/
theorem wrapIndex_lt (x : Int) {m : Nat} (h : 0 < m) : wrapIndex x m < m := by
  have h1 := Int.emod_nonneg x (b := (m : Int)) (by omega)
  have h2 := Int.emod_lt_of_pos x (b := (m : Int)) (by omega)
  unfold wrapIndex; omega

theorem wrapIndex_cast (x : Int) {m : Nat} (h : 0 < m) : ((wrapIndex x m : Nat) : Int) = x % (m : Int) := by
  have h1 := Int.emod_nonneg x (b := (m : Int)) (by omega)
  unfold wrapIndex; omega

end Sys2Proof.Machine
end

