-- ==== Sys2Proof/Laws/State.lean ====
section
/-! SUPPORT. One lemma per field per update of the state: later proofs rewrite with these and unfold no record update. -/

namespace Sys2Proof.Machine

variable (s : State)

/-! ### withDec -/

@[simp] theorem State.withDec_cfg (d : Decoder) : (s.withDec d).cfg = s.cfg := rfl
@[simp] theorem State.withDec_dec (d : Decoder) : (s.withDec d).dec = d := rfl
@[simp] theorem State.withDec_disp (d : Decoder) : (s.withDec d).disp = s.disp := rfl
@[simp] theorem State.withDec_regs (d : Decoder) : (s.withDec d).regs = s.regs := rfl
@[simp] theorem State.withDec_scr (d : Decoder) : (s.withDec d).scr = s.scr := rfl
@[simp] theorem State.withDec_busError (d : Decoder) : (s.withDec d).busError = s.busError := rfl
@[simp] theorem State.withDec_host (d : Decoder) : (s.withDec d).host = s.host := rfl
@[simp] theorem State.withDec_inbox (d : Decoder) : (s.withDec d).inbox = s.inbox := rfl
@[simp] theorem State.withDec_races (d : Decoder) : (s.withDec d).races = s.races := rfl
@[simp] theorem State.withDec_draws (d : Decoder) : (s.withDec d).draws = s.draws := rfl
@[simp] theorem State.withDec_trace (d : Decoder) : (s.withDec d).trace = s.trace := rfl
@[simp] theorem State.withDec_self : s.withDec s.dec = s := rfl

/-! ### withDisp -/

@[simp] theorem State.withDisp_cfg (d : Display) : (s.withDisp d).cfg = s.cfg := rfl
@[simp] theorem State.withDisp_dec (d : Display) : (s.withDisp d).dec = s.dec := rfl
@[simp] theorem State.withDisp_disp (d : Display) : (s.withDisp d).disp = d := rfl
@[simp] theorem State.withDisp_regs (d : Display) : (s.withDisp d).regs = s.regs := rfl
@[simp] theorem State.withDisp_scr (d : Display) : (s.withDisp d).scr = s.scr := rfl
@[simp] theorem State.withDisp_busError (d : Display) : (s.withDisp d).busError = s.busError := rfl
@[simp] theorem State.withDisp_host (d : Display) : (s.withDisp d).host = s.host := rfl
@[simp] theorem State.withDisp_inbox (d : Display) : (s.withDisp d).inbox = s.inbox := rfl
@[simp] theorem State.withDisp_races (d : Display) : (s.withDisp d).races = s.races := rfl
@[simp] theorem State.withDisp_draws (d : Display) : (s.withDisp d).draws = s.draws := rfl
@[simp] theorem State.withDisp_trace (d : Display) : (s.withDisp d).trace = s.trace := rfl
@[simp] theorem State.withDisp_self : s.withDisp s.disp = s := rfl

/-! ### withRegs -/

@[simp] theorem State.withRegs_cfg (r : RegisterFile) : (s.withRegs r).cfg = s.cfg := rfl
@[simp] theorem State.withRegs_dec (r : RegisterFile) : (s.withRegs r).dec = s.dec := rfl
@[simp] theorem State.withRegs_disp (r : RegisterFile) : (s.withRegs r).disp = s.disp := rfl
@[simp] theorem State.withRegs_regs (r : RegisterFile) : (s.withRegs r).regs = r := rfl
@[simp] theorem State.withRegs_scr (r : RegisterFile) : (s.withRegs r).scr = s.scr := rfl
@[simp] theorem State.withRegs_busError (r : RegisterFile) : (s.withRegs r).busError = s.busError := rfl
@[simp] theorem State.withRegs_host (r : RegisterFile) : (s.withRegs r).host = s.host := rfl
@[simp] theorem State.withRegs_inbox (r : RegisterFile) : (s.withRegs r).inbox = s.inbox := rfl
@[simp] theorem State.withRegs_races (r : RegisterFile) : (s.withRegs r).races = s.races := rfl
@[simp] theorem State.withRegs_draws (r : RegisterFile) : (s.withRegs r).draws = s.draws := rfl
@[simp] theorem State.withRegs_trace (r : RegisterFile) : (s.withRegs r).trace = s.trace := rfl
@[simp] theorem State.withRegs_self : s.withRegs s.regs = s := rfl

/-! ### withScr -/

@[simp] theorem State.withScr_cfg (c : Scratch) : (s.withScr c).cfg = s.cfg := rfl
@[simp] theorem State.withScr_dec (c : Scratch) : (s.withScr c).dec = s.dec := rfl
@[simp] theorem State.withScr_disp (c : Scratch) : (s.withScr c).disp = s.disp := rfl
@[simp] theorem State.withScr_regs (c : Scratch) : (s.withScr c).regs = s.regs := rfl
@[simp] theorem State.withScr_scr (c : Scratch) : (s.withScr c).scr = c := rfl
@[simp] theorem State.withScr_busError (c : Scratch) : (s.withScr c).busError = s.busError := rfl
@[simp] theorem State.withScr_host (c : Scratch) : (s.withScr c).host = s.host := rfl
@[simp] theorem State.withScr_inbox (c : Scratch) : (s.withScr c).inbox = s.inbox := rfl
@[simp] theorem State.withScr_races (c : Scratch) : (s.withScr c).races = s.races := rfl
@[simp] theorem State.withScr_draws (c : Scratch) : (s.withScr c).draws = s.draws := rfl
@[simp] theorem State.withScr_trace (c : Scratch) : (s.withScr c).trace = s.trace := rfl
@[simp] theorem State.withScr_self : s.withScr s.scr = s := rfl

/-! ### withBusError -/

@[simp] theorem State.withBusError_cfg (e : Bool) : (s.withBusError e).cfg = s.cfg := rfl
@[simp] theorem State.withBusError_dec (e : Bool) : (s.withBusError e).dec = s.dec := rfl
@[simp] theorem State.withBusError_disp (e : Bool) : (s.withBusError e).disp = s.disp := rfl
@[simp] theorem State.withBusError_regs (e : Bool) : (s.withBusError e).regs = s.regs := rfl
@[simp] theorem State.withBusError_scr (e : Bool) : (s.withBusError e).scr = s.scr := rfl
@[simp] theorem State.withBusError_busError (e : Bool) : (s.withBusError e).busError = e := rfl
@[simp] theorem State.withBusError_host (e : Bool) : (s.withBusError e).host = s.host := rfl
@[simp] theorem State.withBusError_inbox (e : Bool) : (s.withBusError e).inbox = s.inbox := rfl
@[simp] theorem State.withBusError_races (e : Bool) : (s.withBusError e).races = s.races := rfl
@[simp] theorem State.withBusError_draws (e : Bool) : (s.withBusError e).draws = s.draws := rfl
@[simp] theorem State.withBusError_trace (e : Bool) : (s.withBusError e).trace = s.trace := rfl
@[simp] theorem State.withBusError_self : s.withBusError s.busError = s := rfl

/-! ### withHost -/

@[simp] theorem State.withHost_cfg (h : HostState) : (s.withHost h).cfg = s.cfg := rfl
@[simp] theorem State.withHost_dec (h : HostState) : (s.withHost h).dec = s.dec := rfl
@[simp] theorem State.withHost_disp (h : HostState) : (s.withHost h).disp = s.disp := rfl
@[simp] theorem State.withHost_regs (h : HostState) : (s.withHost h).regs = s.regs := rfl
@[simp] theorem State.withHost_scr (h : HostState) : (s.withHost h).scr = s.scr := rfl
@[simp] theorem State.withHost_busError (h : HostState) : (s.withHost h).busError = s.busError := rfl
@[simp] theorem State.withHost_host (h : HostState) : (s.withHost h).host = h := rfl
@[simp] theorem State.withHost_inbox (h : HostState) : (s.withHost h).inbox = s.inbox := rfl
@[simp] theorem State.withHost_races (h : HostState) : (s.withHost h).races = s.races := rfl
@[simp] theorem State.withHost_draws (h : HostState) : (s.withHost h).draws = s.draws := rfl
@[simp] theorem State.withHost_trace (h : HostState) : (s.withHost h).trace = s.trace := rfl
@[simp] theorem State.withHost_self : s.withHost s.host = s := rfl

/-! ### withInbox -/

@[simp] theorem State.withInbox_cfg (l : List Frame) : (s.withInbox l).cfg = s.cfg := rfl
@[simp] theorem State.withInbox_dec (l : List Frame) : (s.withInbox l).dec = s.dec := rfl
@[simp] theorem State.withInbox_disp (l : List Frame) : (s.withInbox l).disp = s.disp := rfl
@[simp] theorem State.withInbox_regs (l : List Frame) : (s.withInbox l).regs = s.regs := rfl
@[simp] theorem State.withInbox_scr (l : List Frame) : (s.withInbox l).scr = s.scr := rfl
@[simp] theorem State.withInbox_busError (l : List Frame) : (s.withInbox l).busError = s.busError := rfl
@[simp] theorem State.withInbox_host (l : List Frame) : (s.withInbox l).host = s.host := rfl
@[simp] theorem State.withInbox_inbox (l : List Frame) : (s.withInbox l).inbox = l := rfl
@[simp] theorem State.withInbox_races (l : List Frame) : (s.withInbox l).races = s.races := rfl
@[simp] theorem State.withInbox_draws (l : List Frame) : (s.withInbox l).draws = s.draws := rfl
@[simp] theorem State.withInbox_trace (l : List Frame) : (s.withInbox l).trace = s.trace := rfl
@[simp] theorem State.withInbox_self : s.withInbox s.inbox = s := rfl

/-! ### withRaces -/

@[simp] theorem State.withRaces_cfg (l : List (List RaceItem)) : (s.withRaces l).cfg = s.cfg := rfl
@[simp] theorem State.withRaces_dec (l : List (List RaceItem)) : (s.withRaces l).dec = s.dec := rfl
@[simp] theorem State.withRaces_disp (l : List (List RaceItem)) : (s.withRaces l).disp = s.disp := rfl
@[simp] theorem State.withRaces_regs (l : List (List RaceItem)) : (s.withRaces l).regs = s.regs := rfl
@[simp] theorem State.withRaces_scr (l : List (List RaceItem)) : (s.withRaces l).scr = s.scr := rfl
@[simp] theorem State.withRaces_busError (l : List (List RaceItem)) : (s.withRaces l).busError = s.busError := rfl
@[simp] theorem State.withRaces_host (l : List (List RaceItem)) : (s.withRaces l).host = s.host := rfl
@[simp] theorem State.withRaces_inbox (l : List (List RaceItem)) : (s.withRaces l).inbox = s.inbox := rfl
@[simp] theorem State.withRaces_races (l : List (List RaceItem)) : (s.withRaces l).races = l := rfl
@[simp] theorem State.withRaces_draws (l : List (List RaceItem)) : (s.withRaces l).draws = s.draws := rfl
@[simp] theorem State.withRaces_trace (l : List (List RaceItem)) : (s.withRaces l).trace = s.trace := rfl
@[simp] theorem State.withRaces_self : s.withRaces s.races = s := rfl

/-! ### withDraws -/

@[simp] theorem State.withDraws_cfg (n : Nat) : (s.withDraws n).cfg = s.cfg := rfl
@[simp] theorem State.withDraws_dec (n : Nat) : (s.withDraws n).dec = s.dec := rfl
@[simp] theorem State.withDraws_disp (n : Nat) : (s.withDraws n).disp = s.disp := rfl
@[simp] theorem State.withDraws_regs (n : Nat) : (s.withDraws n).regs = s.regs := rfl
@[simp] theorem State.withDraws_scr (n : Nat) : (s.withDraws n).scr = s.scr := rfl
@[simp] theorem State.withDraws_busError (n : Nat) : (s.withDraws n).busError = s.busError := rfl
@[simp] theorem State.withDraws_host (n : Nat) : (s.withDraws n).host = s.host := rfl
@[simp] theorem State.withDraws_inbox (n : Nat) : (s.withDraws n).inbox = s.inbox := rfl
@[simp] theorem State.withDraws_races (n : Nat) : (s.withDraws n).races = s.races := rfl
@[simp] theorem State.withDraws_draws (n : Nat) : (s.withDraws n).draws = n := rfl
@[simp] theorem State.withDraws_trace (n : Nat) : (s.withDraws n).trace = s.trace := rfl
@[simp] theorem State.withDraws_self : s.withDraws s.draws = s := rfl

/-! ### emit -/

@[simp] theorem State.emit_cfg (o : Output) : (s.emit o).cfg = s.cfg := rfl
@[simp] theorem State.emit_dec (o : Output) : (s.emit o).dec = s.dec := rfl
@[simp] theorem State.emit_disp (o : Output) : (s.emit o).disp = s.disp := rfl
@[simp] theorem State.emit_regs (o : Output) : (s.emit o).regs = s.regs := rfl
@[simp] theorem State.emit_scr (o : Output) : (s.emit o).scr = s.scr := rfl
@[simp] theorem State.emit_busError (o : Output) : (s.emit o).busError = s.busError := rfl
@[simp] theorem State.emit_host (o : Output) : (s.emit o).host = s.host := rfl
@[simp] theorem State.emit_inbox (o : Output) : (s.emit o).inbox = s.inbox := rfl
@[simp] theorem State.emit_races (o : Output) : (s.emit o).races = s.races := rfl
@[simp] theorem State.emit_draws (o : Output) : (s.emit o).draws = s.draws := rfl
@[simp] theorem State.emit_trace (o : Output) : (s.emit o).trace = s.trace ++ [o] := rfl

/-! ### raise -/

@[simp] theorem State.raise_cfg (c : Condition) : (s.raise c).cfg = s.cfg := rfl
@[simp] theorem State.raise_dec (c : Condition) : (s.raise c).dec = s.dec := rfl
@[simp] theorem State.raise_disp (c : Condition) : (s.raise c).disp = s.disp := rfl
@[simp] theorem State.raise_regs (c : Condition) : (s.raise c).regs = s.regs := rfl
@[simp] theorem State.raise_scr (c : Condition) : (s.raise c).scr = s.scr := rfl
@[simp] theorem State.raise_busError (c : Condition) : (s.raise c).busError = s.busError := rfl
@[simp] theorem State.raise_host (c : Condition) : (s.raise c).host = s.host := rfl
@[simp] theorem State.raise_inbox (c : Condition) : (s.raise c).inbox = s.inbox := rfl
@[simp] theorem State.raise_races (c : Condition) : (s.raise c).races = s.races := rfl
@[simp] theorem State.raise_draws (c : Condition) : (s.raise c).draws = s.draws := rfl
@[simp] theorem State.raise_trace (c : Condition) : (s.raise c).trace = s.trace ++ [.condition c] := rfl

/-! ### showPins -/

@[simp] theorem State.showPins_cfg : s.showPins.cfg = s.cfg := rfl
@[simp] theorem State.showPins_dec : s.showPins.dec = s.dec := rfl
@[simp] theorem State.showPins_disp : s.showPins.disp = s.disp := rfl
@[simp] theorem State.showPins_regs : s.showPins.regs = s.regs := rfl
@[simp] theorem State.showPins_scr : s.showPins.scr = s.scr := rfl
@[simp] theorem State.showPins_busError : s.showPins.busError = s.busError := rfl
@[simp] theorem State.showPins_host : s.showPins.host = s.host := rfl
@[simp] theorem State.showPins_inbox : s.showPins.inbox = s.inbox := rfl
@[simp] theorem State.showPins_races : s.showPins.races = s.races := rfl
@[simp] theorem State.showPins_draws : s.showPins.draws = s.draws := rfl
@[simp] theorem State.showPins_trace : s.showPins.trace = s.trace ++ [.pins s.pins] := rfl

/-! ### Scratch updates -/

variable (c : Scratch)

@[simp] theorem Scratch.latch_latchedAddress (off : Addr) (dir : Direction) : (c.latch off dir).latchedAddress = off := rfl
@[simp] theorem Scratch.latch_direction (off : Addr) (dir : Direction) : (c.latch off dir).direction = dir := rfl
@[simp] theorem Scratch.latch_buffer (off : Addr) (dir : Direction) : (c.latch off dir).buffer = c.buffer := rfl
@[simp] theorem Scratch.latch_offset (off : Addr) (dir : Direction) : (c.latch off dir).offset = 0 := rfl
@[simp] theorem Scratch.latch_size (off : Addr) (dir : Direction) : (c.latch off dir).size = 0 := rfl

@[simp] theorem Scratch.loadReply_latchedAddress (w : Word) : (c.loadReply w).latchedAddress = c.latchedAddress := rfl
@[simp] theorem Scratch.loadReply_direction (w : Word) : (c.loadReply w).direction = c.direction := rfl
@[simp] theorem Scratch.loadReply_buffer (w : Word) : (c.loadReply w).buffer = storeBe32 c.buffer w := rfl
@[simp] theorem Scratch.loadReply_offset (w : Word) : (c.loadReply w).offset = c.offset := rfl
@[simp] theorem Scratch.loadReply_size (w : Word) : (c.loadReply w).size = 4 := rfl

@[simp] theorem Scratch.append_latchedAddress (b : Byte) : (c.append b).latchedAddress = c.latchedAddress := rfl
@[simp] theorem Scratch.append_direction (b : Byte) : (c.append b).direction = c.direction := rfl
@[simp] theorem Scratch.append_buffer (b : Byte) : (c.append b).buffer = c.buffer.setIfInBounds c.size b := rfl
@[simp] theorem Scratch.append_offset (b : Byte) : (c.append b).offset = c.offset := rfl
@[simp] theorem Scratch.append_size (b : Byte) : (c.append b).size = c.size + 1 := rfl

@[simp] theorem Scratch.advance_latchedAddress : (c.advance).latchedAddress = c.latchedAddress := rfl
@[simp] theorem Scratch.advance_direction : (c.advance).direction = c.direction := rfl
@[simp] theorem Scratch.advance_buffer : (c.advance).buffer = c.buffer := rfl
@[simp] theorem Scratch.advance_offset : (c.advance).offset = c.offset + 1 := rfl
@[simp] theorem Scratch.advance_size : (c.advance).size = c.size := rfl

/-! ### Two updates of the same group -/

@[simp] theorem State.withDec_withDec (d e : Decoder) : (s.withDec d).withDec e = s.withDec e := rfl
@[simp] theorem State.withDisp_withDisp (d e : Display) : (s.withDisp d).withDisp e = s.withDisp e := rfl
@[simp] theorem State.withRegs_withRegs (d e : RegisterFile) : (s.withRegs d).withRegs e = s.withRegs e := rfl
@[simp] theorem State.withScr_withScr (d e : Scratch) : (s.withScr d).withScr e = s.withScr e := rfl
@[simp] theorem State.withHost_withHost (d e : HostState) : (s.withHost d).withHost e = s.withHost e := rfl

/-- Two states with the same fields are the same state: the shape in which frames are put together. -/
theorem State.eq_of_fields {s t : State} (h1 : s.cfg = t.cfg) (h2 : s.dec = t.dec) (h3 : s.disp = t.disp)
    (h4 : s.regs = t.regs) (h5 : s.scr = t.scr) (h6 : s.busError = t.busError) (h7 : s.host = t.host)
    (h8 : s.inbox = t.inbox) (h9 : s.races = t.races) (h10 : s.draws = t.draws) (h11 : s.trace = t.trace) : s = t := by
  cases s; cases t; simp_all

end Sys2Proof.Machine
end

