-- ==== Sys2Proof/Laws/Ops.lean ====
section
/-! SUPPORT. What each shared operation can do, said once: running one operation after another, the edge lockout, the
three pin steps of a scan transition, the address phase, the commit, and the frame of every event of the responder. -/

namespace Sys2Proof.Machine

/-! ### One after another -/

@[simp] theorem andThen_next (s : State) (f : State → Result) : andThen (.next s) f = f s := rfl
@[simp] theorem andThen_refused (e : Refusal) (f : State → Result) : andThen (.refused e) f = .refused e := rfl

theorem andThen_eq_next {r : Result} {f : State → Result} {t : State} :
    andThen r f = .next t ↔ ∃ s, r = .next s ∧ f s = .next t := by
  cases r <;> simp [andThen]

@[simp] theorem runOps_nil (s : State) : runOps [] s = .next s := rfl
@[simp] theorem runOps_cons (i : Instr) (l : List Instr) (s : State) :
    runOps (i :: l) s = andThen (exec i s) (runOps l) := rfl

theorem runOps_append (l m : List Instr) (s : State) : runOps (l ++ m) s = andThen (runOps l s) (runOps m) := by
  induction l generalizing s with
  | nil => rfl
  | cons i l ih =>
    simp only [List.cons_append, runOps_cons]
    cases h : exec i s <;> simp [andThen, ih]

/-! ### The step -/

theorem step_nil {s : State} (h : s.inbox = []) : step s = .next s := by
  simp [step, takeDelivered, h]

theorem step_cons {s : State} {f : Frame} {rest : List Frame} (h : s.inbox = f :: rest) :
    step s = match decode f with
      | some i => exec i (s.withInbox rest)
      | none => .refused .undecodableFrame := by
  cases hd : decode f <;> simp [step, takeDelivered, h, hd]

/-! ### The edge lockout -/

theorem acceptEdge_locked {s : State} (h : 0 < s.dec.lockout) (d : Decoder) : acceptEdge s d = s := by
  rw [acceptEdge, if_neg (by omega)]

theorem acceptEdge_idle {s : State} (h : s.dec.lockout = 0) (d : Decoder) :
    acceptEdge s d = s.withDec { d with lockout := s.cfg.lockoutTicks } := by
  rw [acceptEdge, if_pos h]

/-- An edge changes the decoder at most. -/
theorem acceptEdge_frame (s : State) (d : Decoder) : acceptEdge s d = s.withDec (acceptEdge s d).dec := by
  unfold acceptEdge; split <;> rfl

/-! ### The pin steps of a scan transition -/

theorem clearPins_eq (s : State) :
    clearPins s =
      { s with
        disp := { s.disp with dwellCounter := 0, out := zeroBits s.cfg.nPins, dir := zeroBits s.cfg.nPins }
        trace := s.trace ++ [.pins (List.replicate s.cfg.nPins .Z)] } := by
  simp [clearPins, State.showPins, State.emit, State.withDisp, State.pins, pinLevels_zeroBits]

/-- The slot after a slot (R144). -/
def nextSlot (c : Config) (ph b : Nat) : Nat × Nat :=
  if ph + 1 < c.nPins then (ph + 1, b) else (0, (b + 1) % c.nPlanes)

theorem advanceScan_eq (s : State) :
    advanceScan s = s.withDisp
      { s.disp with
        scanPhase := (nextSlot s.cfg s.disp.scanPhase s.disp.scanCycle).1
        scanCycle := (nextSlot s.cfg s.disp.scanPhase s.disp.scanCycle).2 } := by
  unfold advanceScan nextSlot; split <;> rfl

/-- The direction bits of an activated slot (R143 step 3). -/
def slotDir (c : Config) (t : List (List Bits)) (ph b : Nat) : Bits :=
  orBits c.nPins (onehot c.nPins ph) (tableEntry t ph b)

theorem slotDir_getD (c : Config) (t : List (List Bits)) (ph b k : Nat) :
    (slotDir c t ph b).getD k false =
      (decide (k < c.nPins) && (decide (k = ph) || tableBit t ph b k)) := by
  simp only [slotDir, orBits_getD, onehot_getD]
  by_cases h : k < c.nPins <;> simp [h, tableBit, tableEntry]

/-- Everything a scan transition does (R143): the display after it, and the two pin states shown. -/
theorem scanTransition_eq (s : State) :
    scanTransition s =
      { s with
        disp := { s.disp with
          scanPhase := (nextSlot s.cfg s.disp.scanPhase s.disp.scanCycle).1
          scanCycle := (nextSlot s.cfg s.disp.scanPhase s.disp.scanCycle).2
          dwellCounter := 0
          out := onehot s.cfg.nPins (nextSlot s.cfg s.disp.scanPhase s.disp.scanCycle).1
          dir := slotDir s.cfg s.disp.dirbits (nextSlot s.cfg s.disp.scanPhase s.disp.scanCycle).1
            (nextSlot s.cfg s.disp.scanPhase s.disp.scanCycle).2 }
        trace := s.trace ++ [.pins (List.replicate s.cfg.nPins .Z),
          .pins (pinLevels s.cfg.nPins
            (slotDir s.cfg s.disp.dirbits (nextSlot s.cfg s.disp.scanPhase s.disp.scanCycle).1
              (nextSlot s.cfg s.disp.scanPhase s.disp.scanCycle).2)
            (onehot s.cfg.nPins (nextSlot s.cfg s.disp.scanPhase s.disp.scanCycle).1))] } := by
  simp [scanTransition, drivePins, advanceScan_eq, clearPins_eq, State.showPins, State.emit, State.withDisp,
    State.pins, slotDir]

/-- `DISP_TICK` either counts or goes to the next slot (R143). -/
theorem dispTick_cases (s : State) :
    (s.disp.dwellCounter + 1 < dwellOf s.cfg s.disp.scanPhase s.disp.scanCycle ∧
      dispTick s = s.withDisp { s.disp with dwellCounter := s.disp.dwellCounter + 1 }) ∨
    (dwellOf s.cfg s.disp.scanPhase s.disp.scanCycle ≤ s.disp.dwellCounter + 1 ∧ dispTick s = scanTransition s) := by
  unfold dispTick; split
  · exact .inr ⟨‹_›, rfl⟩
  · exact .inl ⟨by omega, rfl⟩

/-! ### The responder -/

/-- The reply of a read-direction address phase, by the latched selector (R171, R172, R173, R175). -/
theorem populateReply_eq (s : State) :
    populateReply s =
      if s.scr.latchedAddress = 0 then rdValue s else if s.scr.latchedAddress = 1 then rdClick s else s := by
  unfold populateReply
  have h0 : s.scr.latchedAddress = 0 ↔ s.scr.latchedAddress.toNat = 0 := by simp [BitVec.toNat_eq]
  have h1 : s.scr.latchedAddress = 1 ↔ s.scr.latchedAddress.toNat = 1 := by simp [BitVec.toNat_eq]
  split <;> simp_all [rdOther]

/-- The widths of R170, by the selector. -/
theorem registerWidth_eq (off : Addr) :
    registerWidth off = if off = 0 ∨ off = 1 then some 4 else if off = 3 then some 1 else none := by
  revert off; decide

/-- Which register a commit writes, by the latched selector (R176). -/
theorem commitFixed_eq (s : State) :
    commitFixed s =
      if s.scr.latchedAddress = 0 then wrValue s else if s.scr.latchedAddress = 1 then wrClick s
      else if s.scr.latchedAddress = 3 then wrIllumType s else s := by
  unfold commitFixed
  have h0 : s.scr.latchedAddress = 0 ↔ s.scr.latchedAddress.toNat = 0 := by simp [BitVec.toNat_eq]
  have h1 : s.scr.latchedAddress = 1 ↔ s.scr.latchedAddress.toNat = 1 := by simp [BitVec.toNat_eq]
  have h3 : s.scr.latchedAddress = 3 ↔ s.scr.latchedAddress.toNat = 3 := by simp [BitVec.toNat_eq]
  split <;> simp_all [wrOther]

/-- The commit of a fixed-width register, by the latched selector and the size (R176, R177, R178, R183). -/
theorem commitIfComplete_eq (s : State) :
    commitIfComplete s =
      if s.scr.latchedAddress = 0 ∧ s.scr.size = 4 then wrValue s
      else if s.scr.latchedAddress = 1 ∧ s.scr.size = 4 then wrClick s
      else if s.scr.latchedAddress = 3 ∧ s.scr.size = 1 then wrIllumType s
      else s := by
  rw [commitIfComplete, commitFixed_eq, registerWidth_eq]
  by_cases h0 : s.scr.latchedAddress = 0
  · simp [h0, eq_comm]
  by_cases h1 : s.scr.latchedAddress = 1
  · simp [h1, eq_comm]
  by_cases h3 : s.scr.latchedAddress = 3
  · simp [h3, eq_comm]
  · simp only [h0, h1, h3, or_self, false_and, if_false, reduceCtorEq]

/-- An operation of the responder writes registers, scratch, error flag and trace (R40). -/
structure BusFrame (s t : State) : Prop where
  cfg : t.cfg = s.cfg
  dec : t.dec = s.dec
  disp : t.disp = s.disp
  host : t.host = s.host
  inbox : t.inbox = s.inbox
  races : t.races = s.races
  draws : t.draws = s.draws

theorem BusFrame.refl (s : State) : BusFrame s s := ⟨rfl, rfl, rfl, rfl, rfl, rfl, rfl⟩

theorem BusFrame.trans {s t u : State} (h : BusFrame s t) (k : BusFrame t u) : BusFrame s u :=
  ⟨k.1.trans h.1, k.2.trans h.2, k.3.trans h.3, k.4.trans h.4, k.5.trans h.5, k.6.trans h.6, k.7.trans h.7⟩

theorem rdValue_frame (s : State) : BusFrame s (rdValue s) := by constructor <;> simp [rdValue]
theorem rdClick_frame (s : State) : BusFrame s (rdClick s) := by constructor <;> simp [rdClick]
theorem wrValue_frame (s : State) : BusFrame s (wrValue s) := by constructor <;> simp [wrValue]
theorem wrClick_frame (s : State) : BusFrame s (wrClick s) := by constructor <;> simp [wrClick]
theorem wrIllumType_frame (s : State) : BusFrame s (wrIllumType s) := by constructor <;> simp [wrIllumType]
theorem wrIllumData_frame (s : State) : BusFrame s (wrIllumData s) := by constructor <;> simp [wrIllumData]
theorem latchAddress_frame (a : Addr) (d : Direction) (s : State) : BusFrame s (latchAddress a d s) :=
  ⟨rfl, rfl, rfl, rfl, rfl, rfl, rfl⟩
theorem busErrorEvent_frame (s : State) : BusFrame s (busErrorEvent s) := ⟨rfl, rfl, rfl, rfl, rfl, rfl, rfl⟩

theorem populateReply_frame (s : State) : BusFrame s (populateReply s) := by
  rw [populateReply_eq]; split
  · exact rdValue_frame s
  · split
    · exact rdClick_frame s
    · exact .refl s

theorem execAddrMatch_matched {s : State} {a : Addr} (d : Direction) (h : addressMatched s.cfg a = true) :
    execAddrMatch a d s = .next (addrMatch a d s) := by
  rw [execAddrMatch, if_pos h]

theorem addrMatch_frame (a : Addr) (d : Direction) (s : State) : BusFrame s (addrMatch a d s) := by
  cases d
  · exact (latchAddress_frame a .read s).trans (populateReply_frame _)
  · exact latchAddress_frame a .write s

theorem byteReadyRd_frame (s : State) : BusFrame s (byteReadyRd s) := by
  unfold byteReadyRd; split
  · exact ⟨rfl, rfl, rfl, rfl, rfl, rfl, rfl⟩
  · split <;> exact ⟨rfl, rfl, rfl, rfl, rfl, rfl, rfl⟩

theorem commitIfComplete_frame (s : State) : BusFrame s (commitIfComplete s) := by
  rw [commitIfComplete_eq]
  split
  · exact wrValue_frame s
  · split
    · exact wrClick_frame s
    · split
      · exact wrIllumType_frame s
      · exact .refl s

/-- A commit writes registers only. -/
theorem commitIfComplete_scr (s : State) : (commitIfComplete s).scr = s.scr := by
  rw [commitIfComplete_eq]; split; · rfl
  split; · rfl
  split <;> rfl

theorem byteReadyWr_frame (b : Byte) (s : State) : BusFrame s (byteReadyWr b s) := by
  unfold byteReadyWr; split
  · exact ⟨rfl, rfl, rfl, rfl, rfl, rfl, rfl⟩
  · split
    · have h := commitIfComplete_frame (s.withScr (s.scr.append b))
      exact ⟨h.1, h.2, h.3, h.4, h.5, h.6, h.7⟩
    · exact ⟨rfl, rfl, rfl, rfl, rfl, rfl, rfl⟩

theorem stop_frame (s : State) : BusFrame s (stop s) := by
  unfold stop; split
  · exact wrIllumData_frame s
  · exact .refl s

end Sys2Proof.Machine
end

