-- ==== Sys2Proof/Laws/Host.lean ====
section
/-! SUPPORT. The accessor with its interleavings, and the host's painting: what each shared operation can do. -/

namespace Sys2Proof.Machine

/-! ### GET_COMMAND -/

/-- An interrupt is the operation of its name, and it always completes (R75) if the driver keeps R264 (b). -/
theorem exec_interrupt (e : Interrupt) (s : State) (h : e.toInstr.inRange s.cfg = true) :
    exec e.toInstr s = .next (runInterrupt e s) := by
  cases e with
  | addrMatch a d => exact execAddrMatch_matched d h
  | _ => rfl

@[simp] theorem runInterrupt_cfg (e : Interrupt) (s : State) : (runInterrupt e s).cfg = s.cfg := by
  cases e with
  | rotEdge level => simp only [runInterrupt, rotEdge]; rw [acceptEdge_frame, State.withDec_cfg]
  | pressEdge => simp only [runInterrupt, pressEdge]; rw [acceptEdge_frame, State.withDec_cfg]
  | addrMatch a d => exact (addrMatch_frame a d s).cfg
  | byteReadyRd => exact (byteReadyRd_frame s).cfg
  | byteReadyWr b => exact (byteReadyWr_frame b s).cfg
  | stop => exact (stop_frame s).cfg
  | busError => exact (busErrorEvent_frame s).cfg

/-- The interrupts of a race, one after another. -/
theorem runOps_interrupts (l : List Interrupt) (s : State) (h : ∀ e ∈ l, e.toInstr.inRange s.cfg = true) :
    runOps (l.map Interrupt.toInstr) s = .next (l.foldl (fun t e => runInterrupt e t) s) := by
  induction l generalizing s with
  | nil => rfl
  | cons e l ih =>
    rw [List.map_cons, runOps_cons, exec_interrupt e s (h e (by simp)), andThen_next,
      ih _ (fun x hx => by rw [runInterrupt_cfg]; exact h x (by simp [hx])), List.foldl_cons]

theorem unmatchedItem_eq_some {c : Config} {x : RaceItem} {a : Addr} :
    unmatchedItem c x = some a ↔ (∃ d, x = .interrupt (.addrMatch a d)) ∧ addressMatched c a = false := by
  unfold unmatchedItem
  split
  · rename_i b d
    by_cases hb : addressMatched c b = true
    · simp only [hb, if_true, reduceCtorEq, false_iff, not_and, RaceItem.interrupt.injEq, Interrupt.addrMatch.injEq]
      rintro ⟨d', rfl, -⟩; simp [hb]
    · simp only [hb, Bool.false_eq_true, if_false, Option.some.injEq, RaceItem.interrupt.injEq,
        Interrupt.addrMatch.injEq]
      exact ⟨by rintro rfl; exact ⟨⟨d, rfl, rfl⟩, by simpa using hb⟩, fun h => h.1.choose_spec.1⟩
  · rename_i h
    simp only [reduceCtorEq, false_iff, not_and]
    rintro ⟨d, rfl⟩; exact absurd rfl (h a d)

/-- A race is refused for an address in it that the device does not answer, and for nothing else. -/
theorem unmatchedIn_cases (c : Config) (items : List RaceItem) :
    (unmatchedIn c items = none ∧ ∀ a d, RaceItem.interrupt (.addrMatch a d) ∈ items → addressMatched c a = true) ∨
    ∃ a d, unmatchedIn c items = some a ∧ RaceItem.interrupt (.addrMatch a d) ∈ items ∧ addressMatched c a = false := by
  cases h : unmatchedIn c items with
  | none =>
    refine .inl ⟨rfl, fun a d hm => ?_⟩
    by_contra ha
    have hn := List.findSome?_eq_none_iff.mp h _ hm
    rw [unmatchedItem_eq_some.mpr ⟨⟨d, rfl⟩, by simpa using ha⟩] at hn
    cases hn
  | some a =>
    obtain ⟨x, hx, hs⟩ := List.exists_of_findSome?_eq_some h
    obtain ⟨⟨d, rfl⟩, ha⟩ := unmatchedItem_eq_some.mp hs
    exact .inr ⟨a, d, rfl, hx, ha⟩

/-- `GET_COMMAND` completes exactly when the driver keeps R264 (b) in its race (R182, R233). -/
theorem execGetCommand_cases (s : State) :
    (s.raceInRange ∧ execGetCommand s = .next (getCommand s)) ∨
    ∃ a d, RaceItem.interrupt (.addrMatch a d) ∈ s.race ∧ addressMatched s.cfg a = false ∧
      execGetCommand s = .refused (.addressNotMatched a) := by
  rcases unmatchedIn_cases s.cfg s.race with ⟨h, hall⟩ | ⟨a, d, h, hm, ha⟩
  · exact .inl ⟨hall, by simp [execGetCommand, h]⟩
  · exact .inr ⟨a, d, hm, ha, by simp [execGetCommand, h]⟩

theorem execGetCommand_undisturbed {s : State} (h : s.undisturbed) : execGetCommand s = .next (getCommand s) := by
  have h' : s.race = [] := h
  simp [execGetCommand, h', unmatchedIn]

/-- The reads of a race write nothing: its state is that of its interrupts alone (R182). -/
theorem foldl_raceStep_fst (items : List RaceItem) (s : State) (r : Reads) :
    (items.foldl raceStep (s, r)).1 = (interruptsOf items).foldl (fun t e => runInterrupt e t) s := by
  induction items generalizing s r with
  | nil => rfl
  | cons x items ih =>
    cases x <;> simp [List.foldl_cons, raceStep, ih, interruptsOf]

/-- With nothing between its reads, a call sees the scratch as it is (R182: "the result is exactly"). -/
theorem raced_undisturbed {s : State} (h : s.undisturbed) : raced s = (s.withRaces s.races.tail, Reads.start) := by
  simp only [State.undisturbed] at h
  simp [raced, h, runRace]

theorem resultBytes_start (c : Scratch) : Reads.start.resultBytes c = c.buffer.toList.take c.size := by
  have h : Reads.start.bytes.mapIdx (fun i x => x.getD (c.buffer.getD i 0)) = c.buffer := by
    apply Vector.ext
    intro i hi
    simpa [Reads.start] using getD_eq_getElem c.buffer i hi
  unfold Reads.resultBytes
  rw [h]; rfl

theorem commandRead_undisturbed {s : State} (h : s.undisturbed) :
    commandRead s = (s.scr.latchedAddress, s.scr.buffer.toList.take s.scr.size) := by
  rw [commandRead, raced_undisturbed h, raceResult, resultBytes_start]
  rfl

theorem getCommand_undisturbed {s : State} (h : s.undisturbed) :
    getCommand s = (s.withRaces s.races.tail).emit
      (.command s.scr.latchedAddress (s.scr.buffer.toList.take s.scr.size)) := by
  rw [getCommand, commandRead_undisturbed h, raced_undisturbed h]

/-- With no command the command sub-step only reads, and at most shows that it read a malformed one (R209). -/
theorem commandPhase_noCommand (d : HostDraw) {s : State} (hu : s.undisturbed) (hn : s.noCommand) (hs : s.ScratchOk) :
    ∃ shown, commandPhase d s = .next
      { s with
        host := { s.host with
          lastCommand := some (s.scr.latchedAddress, s.scr.buffer.toList.take s.scr.size) }
        races := s.races.tail
        trace := s.trace ++ shown } := by
  rw [commandPhase, execGetCommand_undisturbed hu, andThen_next, getCommand_undisturbed hu, commandRead_undisturbed hu]
  rcases hn with h | ⟨h0, h4⟩
  · refine ⟨[.command s.scr.latchedAddress (s.scr.buffer.toList.take s.scr.size)], ?_⟩
    unfold dispatchCommand
    dsimp only
    split
    · omega
    · omega
    · rfl
  · have hl : (s.scr.buffer.toList.take s.scr.size).length ≠ 4 := by
      have hb : s.scr.size ≤ 20 := hs.2
      rw [List.length_take, Vector.length_toList]; omega
    refine ⟨[.command s.scr.latchedAddress (s.scr.buffer.toList.take s.scr.size), .condition .malformedCommand], ?_⟩
    have h0' : s.scr.latchedAddress.toNat = 0 := by rw [h0]; rfl
    simp only [dispatchCommand, h0', if_neg hl, State.raise, State.emit, State.withHost, State.withRaces,
      List.append_assoc, List.cons_append, List.nil_append]

/-! ### Painting -/

theorem execSetLed_in_range {s : State} {pos : Int} (v : Byte) (h : 0 ≤ pos ∧ pos < s.cfg.nLeds) :
    execSetLed pos v s = .next (setLedAt pos.toNat v s) := by
  rw [execSetLed, if_pos h]

/-- Calls at positions of the table all complete, one table write each. -/
theorem paint_in_range (calls : List (Int × Byte)) (s : State) (h : ∀ q ∈ calls, 0 ≤ q.1 ∧ q.1 < s.cfg.nLeds) :
    paint calls s = .next (calls.foldl (fun t q => setLedAt q.1.toNat q.2 t) s) := by
  induction calls generalizing s with
  | nil => rfl
  | cons q calls ih =>
    rw [paint, execSetLed_in_range q.2 (h q (by simp)), andThen_next,
      ih (setLedAt q.1.toNat q.2 s) (fun r hr => h r (by simp [hr])), List.foldl_cons]

/-- Table writes keep everything but the tables. -/
structure TableFrame (s t : State) : Prop where
  cfg : t.cfg = s.cfg
  dec : t.dec = s.dec
  scanPhase : t.disp.scanPhase = s.disp.scanPhase
  scanCycle : t.disp.scanCycle = s.disp.scanCycle
  dwellCounter : t.disp.dwellCounter = s.disp.dwellCounter
  out : t.disp.out = s.disp.out
  dir : t.disp.dir = s.disp.dir
  regs : t.regs = s.regs
  scr : t.scr = s.scr
  busError : t.busError = s.busError
  host : t.host = s.host
  inbox : t.inbox = s.inbox
  races : t.races = s.races
  draws : t.draws = s.draws
  trace : t.trace = s.trace

theorem TableFrame.refl (s : State) : TableFrame s s := by constructor <;> rfl

theorem TableFrame.trans {s t u : State} (h : TableFrame s t) (k : TableFrame t u) : TableFrame s u :=
  ⟨k.1.trans h.1, k.2.trans h.2, k.3.trans h.3, k.4.trans h.4, k.5.trans h.5, k.6.trans h.6, k.7.trans h.7,
    k.8.trans h.8, k.9.trans h.9, k.10.trans h.10, k.11.trans h.11, k.12.trans h.12, k.13.trans h.13,
    k.14.trans h.14, k.15.trans h.15⟩

theorem setLedAt_frame (pos : Nat) (v : Byte) (s : State) : TableFrame s (setLedAt pos v s) := by
  constructor <;> simp [setLedAt, Display.setLed]

/-- Whatever the host paints changes the tables at most (R141: "no immediate I/O"). -/
theorem paint_frame (calls : List (Int × Byte)) (s t : State) (h : paint calls s = .next t) : TableFrame s t := by
  induction calls generalizing s with
  | nil => cases h; constructor <;> rfl
  | cons q calls ih =>
    rw [paint, andThen_eq_next] at h
    obtain ⟨u, hu, ht⟩ := h
    unfold execSetLed at hu
    split at hu <;> cases hu
    exact (setLedAt_frame _ _ s).trans (ih _ ht)

/-- The three sub-steps of a host tick run in some order, each on the state the one before it leaves (R203). -/
theorem inOrder_cases (o : Fin 6) (a b c : State → Result) (s : State) :
    ∃ x y z, [x, y, z].Perm [a, b, c] ∧ inOrder o a b c s = andThen (andThen (x s) y) z := by
  unfold inOrder
  split
  · exact ⟨a, b, c, .refl _, rfl⟩
  · exact ⟨a, c, b, .cons a (.swap b c []), rfl⟩
  · exact ⟨b, a, c, .swap a b [c], rfl⟩
  · exact ⟨b, c, a, (List.perm_append_comm (l₁ := [b, c]) (l₂ := [a])), rfl⟩
  · exact ⟨c, a, b, (List.perm_append_comm (l₁ := [c]) (l₂ := [a, b])), rfl⟩
  · exact ⟨c, b, a, (List.reverse_perm [a, b, c]), rfl⟩

end Sys2Proof.Machine
end

