-- ==== Sys2Proof/Laws/PerInstr.lean ====
section
/-! SUPPORT. Facts about every instruction as syntax, one lemma per constructor. Family `FrameShape`: the frame of an
operation has between one and seven bytes, and it is a single byte, the selector of spec/30_encoding.md R104, exactly for
the register accesses; a longer frame begins with the number of the operation's format. -/

namespace Sys2Proof.Laws.FrameShape

/-- The byte that numbers a format in a frame (assumption log 2); register accesses have none. -/
def formatByte : Format → Option Byte
  | .edge => some 0
  | .busev => some 1
  | .tick => some 2
  | .call => some 3
  | .host => some 4
  | .busreg => none

/-- What the family says of an instruction. -/
def Statement (i : Instr) : Prop :=
  1 ≤ (encode i).length ∧ (encode i).length ≤ longestFrame ∧ ((encode i).length = 1 ↔ i.format = .busreg) ∧
  (i.format ≠ .busreg → (encode i).head? = formatByte i.format)

theorem rotEdge (level : Bool) : Statement (.rotEdge level) := by
  simp [Statement, encode, Instr.format, longestFrame, formatByte]
theorem pressEdge : Statement .pressEdge := by simp [Statement, encode, Instr.format, longestFrame, formatByte]
theorem decTick : Statement .decTick := by simp [Statement, encode, Instr.format, longestFrame, formatByte]
theorem drainIncrement : Statement .drainIncrement := by
  simp [Statement, encode, Instr.format, longestFrame, formatByte]
theorem drainClicks : Statement .drainClicks := by simp [Statement, encode, Instr.format, longestFrame, formatByte]
theorem setLed (pos : Int) (intensity : Byte) : Statement (.setLed pos intensity) := by
  simp [Statement, encode, encodePos, Instr.format, longestFrame, formatByte]
theorem dispTick : Statement .dispTick := by simp [Statement, encode, Instr.format, longestFrame, formatByte]
theorem addrMatch (a : Addr) (dir : Direction) : Statement (.addrMatch a dir) := by
  simp [Statement, encode, Instr.format, longestFrame, formatByte]
theorem byteReadyRd : Statement .byteReadyRd := by simp [Statement, encode, Instr.format, longestFrame, formatByte]
theorem byteReadyWr (b : Byte) : Statement (.byteReadyWr b) := by
  simp [Statement, encode, Instr.format, longestFrame, formatByte]
theorem stop : Statement .stop := by simp [Statement, encode, Instr.format, longestFrame, formatByte]
theorem busError : Statement .busError := by simp [Statement, encode, Instr.format, longestFrame, formatByte]
theorem getCommand : Statement .getCommand := by simp [Statement, encode, Instr.format, longestFrame, formatByte]
theorem rdValue : Statement .rdValue := by simp [Statement, encode, Instr.format, longestFrame]
theorem rdClick : Statement .rdClick := by simp [Statement, encode, Instr.format, longestFrame]
theorem rdOther (off : Addr) : Statement (.rdOther off) := by simp [Statement, encode, Instr.format, longestFrame]
theorem wrValue : Statement .wrValue := by simp [Statement, encode, Instr.format, longestFrame]
theorem wrClick : Statement .wrClick := by simp [Statement, encode, Instr.format, longestFrame]
theorem wrIllumType : Statement .wrIllumType := by simp [Statement, encode, Instr.format, longestFrame]
theorem wrIllumData : Statement .wrIllumData := by simp [Statement, encode, Instr.format, longestFrame]
theorem wrOther (off : Addr) : Statement (.wrOther off) := by simp [Statement, encode, Instr.format, longestFrame]
theorem ctrlTick : Statement .ctrlTick := by simp [Statement, encode, Instr.format, longestFrame, formatByte]

end Sys2Proof.Laws.FrameShape
end

