-- ==== Sys2Proof/Tests/Slice0.lean ====
section
/-! SUPPORT. The model's own tests: the well-formedness checks refuse ill-formed terms, frames decode, the vectors of
spec/95_test_vectors.md (named in each comment), and for every obligation with hypotheses a state that meets them. -/

namespace Sys2Proof.Tests

open Sys2Proof.Machine

/-! ### Helpers -/

/-- A field of the next state, if there is one. -/
def after {α : Type} (f : State → α) (r : Result) : Option α :=
  match r with
  | .next t => some (f t)
  | _ => none

/-- The refusal of an outcome, if it is one. -/
def refusal (r : Result) : Option Refusal :=
  match r with
  | .refused e => some e
  | _ => none

/-- The decoder as the vectors write it: `(increment, clicks, lockout)`, on the reference instance. -/
def dec (i : Int) (c l : Nat) : State := State.reset.withDec ⟨BitVec.ofInt 32 i, c, l⟩

/-- Those three fields of a state. -/
def decOf (s : State) : Int × Nat × Nat := (s.dec.increment.toInt, s.dec.clicks, s.dec.lockout)

/-- The instance of program P2: `P=3, C=2, N=6`, default map and dwell. -/
def tiny : Config := defaultConfig 6 3 2 3 0x10 0x07

/-- Its reset state. -/
def tinyReset : State := State.resetWith tiny

/-- `tinyReset` at a slot. -/
def atSlot (ph cyc dwell : Nat) : State :=
  tinyReset.withDisp { tinyReset.disp with scanPhase := ph, scanCycle := cyc, dwellCounter := dwell }

/-- A bus state: latched selector, direction, size, and the registers `value` and `click_count`. -/
def bus (off : Addr) (d : Direction) (size : Nat) (v k : Word) : State :=
  (tinyReset.withScr { tinyReset.scr with latchedAddress := off, direction := d, size := size }).withRegs
    { tinyReset.regs with value := v, clickCount := k }

/-- A host state with no command: mode, animation type, counter, speed, and the decoder's counts. -/
def host (m : Mode) (kind counter : Nat) (speed inc : Int) (clicks : Nat) : State :=
  (((tinyReset.withHost { HostState.reset with mode := m, animationType := kind, counter := counter, speed := speed }).withDec
    ⟨BitVec.ofInt 32 inc, clicks, 0⟩).withScr { tinyReset.scr with latchedAddress := 5 })

/-- Free values with a given order; nothing else is drawn. -/
def draw (o : Fin 6) : HostDraw := ⟨o, fun _ => 0, false, fun _ => false, 0⟩

/-- The first bytes of the buffer. -/
def firstBytes (n : Nat) (s : State) : List Byte := s.scr.buffer.toList.take n

/-! ### Well-formedness -/

theorem test_wf_refuses_rdOther_0 : Instr.wf (.rdOther 0) = false := by decide
theorem test_wf_refuses_rdOther_1 : Instr.wf (.rdOther 1) = false := by decide
theorem test_wf_refuses_wrOther_0 : Instr.wf (.wrOther 0) = false := by decide
theorem test_wf_refuses_wrOther_1 : Instr.wf (.wrOther 1) = false := by decide
theorem test_wf_refuses_wrOther_3 : Instr.wf (.wrOther 3) = false := by decide
theorem test_wf_refuses_wrOther_4 : Instr.wf (.wrOther 4) = false := by decide
theorem test_wf_refuses_setLed_high : Instr.wf (.setLed (2 ^ 31) 0) = false := by decide
theorem test_wf_refuses_setLed_low : Instr.wf (.setLed (-(2 ^ 31) - 1) 0) = false := by decide
theorem test_wf_accepts_setLed_low : Instr.wf (.setLed (-(2 ^ 31)) 0) = true := by decide
theorem test_cfg_accepts_reference : referenceConfig.Wf := by decide
theorem test_cfg_accepts_tiny : tiny.Wf := by decide
theorem test_cfg_refuses_one_pin : ¬ (Config.SizesOk { tiny with nPins := 1 }) := by decide
theorem test_cfg_refuses_no_led : ¬ (Config.SizesOk { tiny with nLeds := 0 }) := by decide
theorem test_cfg_refuses_too_many_leds : ¬ (Config.SizesOk { tiny with nLeds := 7 }) := by decide
theorem test_cfg_refuses_nine_planes : ¬ (Config.SizesOk { tiny with nPlanes := 9 }) := by decide
theorem test_cfg_refuses_no_plane : ¬ (Config.SizesOk { tiny with nPlanes := 0 }) := by decide
theorem test_cfg_refuses_click_width_0 : ¬ (Config.SizesOk { tiny with clickWidth := 0 }) := by decide
theorem test_cfg_refuses_click_width_33 : ¬ (Config.SizesOk { tiny with clickWidth := 33 }) := by decide
theorem test_cfg_refuses_short_map : ¬ (Config.LedMapOk { tiny with ledSrc := [0] }) := by decide
theorem test_cfg_refuses_source_not_a_pin : ¬ (Config.LedMapOk { tiny with ledSrc := [0, 0, 1, 1, 2, 3] }) := by decide
theorem test_cfg_refuses_sink_not_a_pin : ¬ (Config.LedMapOk { tiny with ledSnk := [1, 2, 0, 2, 0, 3] }) := by decide
theorem test_cfg_refuses_source_is_sink : ¬ (Config.LedMapOk { tiny with ledSnk := [0, 2, 0, 2, 0, 1] }) := by decide
theorem test_cfg_refuses_pair_twice : ¬ (Config.LedMapOk { tiny with ledSnk := [1, 1, 0, 2, 0, 1] }) := by decide
theorem test_cfg_refuses_dwell_0 : ¬ (Config.DwellOk { tiny with dwell := [[1, 2], [1, 0], [1, 2]] }) := by decide
theorem test_cfg_refuses_short_dwell : ¬ (Config.DwellOk { tiny with dwell := [[1, 2], [1, 2]] }) := by decide
theorem test_cfg_refuses_base_in_mask : ¬ (Config.BusOk { tiny with busBase := 0x11 }) := by decide
theorem test_cfg_refuses_narrow_mask : ¬ (Config.BusOk { tiny with busMask := 0x03 }) := by decide

/-! ### Decoding: the selectors from spec/opcode_table.json, the other frames from assumption log 2 -/

theorem test_decode_rotEdge : decode [0x00, 0x00, 0x01] = some (.rotEdge true) := by decide
theorem test_decode_pressEdge : decode [0x00, 0x01] = some .pressEdge := by decide
theorem test_decode_addrMatch : decode [0x01, 0x00, 0x13] = some (.addrMatch 0x13 .write) := by decide
theorem test_decode_addrMatch_read : decode [0x01, 0x00, 0xFF] = some (.addrMatch 0x7F .read) := by decide
theorem test_decode_byteReadyRd : decode [0x01, 0x01] = some .byteReadyRd := by decide
theorem test_decode_byteReadyWr : decode [0x01, 0x02, 0xAA] = some (.byteReadyWr 0xAA) := by decide
theorem test_decode_stop : decode [0x01, 0x03] = some .stop := by decide
theorem test_decode_busError : decode [0x01, 0x04] = some .busError := by decide
theorem test_decode_decTick : decode [0x02, 0x00] = some .decTick := by decide
theorem test_decode_dispTick : decode [0x02, 0x01] = some .dispTick := by decide
theorem test_decode_ctrlTick : decode [0x04, 0x00] = some .ctrlTick := by decide
theorem test_decode_drainIncrement : decode [0x03, 0x00] = some .drainIncrement := by decide
theorem test_decode_drainClicks : decode [0x03, 0x01] = some .drainClicks := by decide
theorem test_decode_setLed : decode [0x03, 0x02, 0x00, 0x00, 0x01, 0x02, 0x80] = some (.setLed 258 0x80) := by decide
theorem test_decode_getCommand : decode [0x03, 0x03] = some .getCommand := by decide
theorem test_decode_rdValue : decodeTableWord 8 0b10000000 = some .rdValue := by decide
theorem test_decode_rdClick : decodeTableWord 8 0b10000001 = some .rdClick := by decide
theorem test_decode_rdOther : decodeTableWord 8 0b10000100 = some (.rdOther 4) := by decide
theorem test_decode_wrValue : decodeTableWord 8 0b00000000 = some .wrValue := by decide
theorem test_decode_wrClick : decodeTableWord 8 0b00000001 = some .wrClick := by decide
theorem test_decode_wrIllumType : decodeTableWord 8 0b00000011 = some .wrIllumType := by decide
theorem test_decode_wrIllumData : decodeTableWord 8 0b00000100 = some .wrIllumData := by decide
theorem test_decode_wrOther : decodeTableWord 8 0b00000010 = some (.wrOther 2) := by decide
theorem test_decode_refuses_unknown : decode [0x01, 0x05] = none ∧ decode [0x02, 0x02] = none ∧ decode [0x04, 0x01] = none := by decide
theorem test_decode_refuses_trailing : decode [0x02, 0x00, 0x00] = none := by decide

/-- Selector `0x80` placed as a table word runs as the first operation after reset. -/
theorem test_step_runs_rdValue :
    after (fun s => s.scr.size) (step (State.reset.withFetchWord 8 0x80)) = some 4 := by decide

theorem test_step_idle : after (fun s => decide (s = tinyReset)) (step tinyReset) = some true := by decide

theorem test_step_undecodable :
    refusal (step (tinyReset.withInbox [[0x09, 0x09]])) = some .undecodableFrame := by decide

/-! ### Rotary Decoder: vectors V-D1 to V-D17 -/

/-- V-D1. -/
theorem test_rotEdge_accepted : after decOf (exec (.rotEdge true) (dec 0 0 0)) = some (1, 0, 3) := by decide
/-- V-D9. -/
theorem test_rotEdge_wraps :
    after decOf (exec (.rotEdge false) (dec (-2147483648) 0 0)) = some (2147483647, 0, 3) := by decide
/-- V-D7. -/
theorem test_pressEdge_wraps : after decOf (exec .pressEdge (dec 0 255 0)) = some (0, 0, 3) := by decide
/-- V-D5. -/
theorem test_pressEdge_ignored : after decOf (exec .pressEdge (dec 0 0 3)) = some (0, 0, 3) := by decide
/-- V-D10. -/
theorem test_decTick : after decOf (exec .decTick (dec 0 0 3)) = some (0, 0, 2) := by decide
theorem test_decTick_stops_at_0 : after decOf (exec .decTick (dec 0 0 0)) = some (0, 0, 0) := by decide
/-- V-D11. -/
theorem test_drainIncrement :
    after (fun s => (decOf s, s.trace)) (exec .drainIncrement (dec (-2) 1 3)) = some ((0, 1, 3), [.increment (-2)]) := by
  decide
/-- V-D13. -/
theorem test_drainClicks :
    after (fun s => (decOf s, s.trace)) (exec .drainClicks (dec 0 1 3)) = some ((0, 0, 3), [.clicks 1]) := by decide
/-- V-D15: `DIR_OF_LEVEL(1) = −1`. -/
theorem test_rotEdge_other_direction :
    after decOf (exec (.rotEdge true)
      ((State.resetWith { tiny with dirOfHigh := .minus }).withDec ⟨0, 0, 0⟩)) = some (-1, 0, 3) := by decide

/-! ### Display Multiplexer -/

/-- V-M1 on the reference instance: LED 1 has source 0 and sink 2. -/
theorem test_setLed_tables :
    after (fun s => (s.disp.bitplane.getD 1 0, s.disp.dirbits.getD 0 [])) (exec (.setLed 1 255) State.reset) =
      some (15, List.replicate 4 [false, false, true, false, false]) := by decide
/-- V-M10. -/
theorem test_setLed_refused : refusal (exec (.setLed 20 1) State.reset) = some (.ledOutOfRange 20) := by decide
/-- V-M8 on `P=3, C=2`: from (2,0) the next slot is (0,1). -/
theorem test_dispTick_next_cycle :
    after (fun s => (s.disp.scanPhase, s.disp.scanCycle, s.disp.dwellCounter)) (exec .dispTick (atSlot 2 0 0)) =
      some (0, 1, 0) := by decide
/-- P2, tick 3: with LED 0 set, slot (0,1) shows `HLZ`, after all `Z`. -/
theorem test_dispTick_clear_then_set :
    after (fun s => s.trace) (exec .dispTick (setLedAt 0 0xFF (atSlot 2 0 0))) =
      some [.pins [.Z, .Z, .Z], .pins [.H, .L, .Z]] := by decide
/-- P2, ticks 7 and 8: within the dwell of plane 1 nothing changes on the pins. -/
theorem test_dispTick_within_dwell :
    after (fun s => (s.disp.scanPhase, s.disp.dwellCounter, s.trace)) (exec .dispTick (atSlot 2 1 0)) =
      some (2, 1, []) := by decide

/-! ### Bus Register Responder -/

/-- V-B16. -/
theorem test_addrMatch_masks :
    after (fun s => s.scr.latchedAddress) (exec (.addrMatch 0x13 .write) tinyReset) = some 3 := by decide
/-- R73, R233: with base `0x10` and mask `0x07` the device answers `0x10` to `0x17` and no other address. -/
theorem test_addrMatch_other_device :
    refusal (exec (.addrMatch 0x18 .write) tinyReset) = some (.addressNotMatched 0x18) ∧
    after (fun s => s.scr.latchedAddress) (exec (.addrMatch 0x17 .write) tinyReset) = some 7 := by decide
/-- R172's example: `value = 256` is sent as `00 00 01 00` and cleared. -/
theorem test_addrMatch_reads_value :
    after (fun s => (firstBytes 4 s, s.scr.size, s.regs.value)) (exec (.addrMatch 0x10 .read) (bus 3 .write 7 256 0)) =
      some ([0, 0, 1, 0], 4, 0) := by decide
/-- V-B1: past the reply, the sentinel. -/
theorem test_byteReadyRd_sentinel :
    after (fun s => (s.scr.offset, s.trace)) (exec .byteReadyRd (bus 0 .read 0 0 0)) =
      some (0, [.condition .overread, .data 0xFF]) := by decide
/-- R174's example, third byte of `00 00 01 00`. -/
theorem test_byteReadyRd_pops :
    after (fun s => s.trace) (exec .byteReadyRd
      (tinyReset.withScr { tinyReset.scr with buffer := storeBe32 tinyReset.scr.buffer 256, offset := 2, size := 4 })) =
      some [.data 1] := by decide
/-- V-B6, the fourth byte: after `FF FF FF` the byte `FE` commits. -/
theorem test_byteReadyWr_commits :
    after (fun s => (s.regs.clickCount, s.scr.size)) (exec (.byteReadyWr 0xFE)
      (tinyReset.withScr { tinyReset.scr with latchedAddress := 1, buffer := Vector.replicate 20 0xFF, size := 3 })) =
      some (0xFFFFFFFE, 4) := by decide
/-- V-B9: the twenty-first byte is dropped and acknowledged. -/
theorem test_byteReadyWr_overwrite :
    after (fun s => (s.scr.size, s.trace)) (exec (.byteReadyWr 9) (bus 4 .write 20 0 0)) =
      some (20, [.condition .overwrite, .ack]) := by decide
/-- V-B8. -/
theorem test_stop_commits_illum_data :
    after (fun s => s.regs.illumData.toList.take 5) (exec .stop
      (tinyReset.withScr { tinyReset.scr with latchedAddress := 4, buffer := Vector.replicate 20 7, size := 3 })) =
      some [7, 7, 7, 0, 0] := by decide
/-- V-B13: after a read, `STOP` changes nothing. -/
theorem test_stop_after_read : after (fun s => decide (s = bus 0 .read 4 0 0)) (exec .stop (bus 0 .read 4 0 0)) = some true := by
  decide
/-- V-B10. -/
theorem test_busError_flag : after (fun s => (s.busError, s.scr.size)) (exec .busError (bus 0 .write 2 7 0)) = some (true, 2) := by
  decide
/-- V-B10: the byte after the error is dropped. -/
theorem test_byteReadyWr_abandoned :
    after (fun s => (s.scr.size, s.regs.value)) (exec (.byteReadyWr 3) ((bus 0 .write 3 7 0).withBusError true)) =
      some (3, 7) := by decide
/-- R182's example. -/
theorem test_getCommand :
    after (fun s => s.trace) (exec .getCommand
      (tinyReset.withScr { tinyReset.scr with buffer := storeBe32 tinyReset.scr.buffer 256, size := 4 })) =
      some [.command 0 [0, 0, 1, 0]] := by decide
/-- V-B17: the address of the old transaction, the byte of the new one. -/
theorem test_getCommand_torn :
    after (fun s => s.trace.getLast?) (exec .getCommand
      ((tinyReset.withScr { tinyReset.scr with buffer := storeBe32 tinyReset.scr.buffer 256, size := 4 }).withRaces
        [[.readAddr, .interrupt (.addrMatch 0x11 .write), .interrupt (.byteReadyWr 0xAA)]])) =
      some (some (.command 0 [0xAA])) := by decide
/-- R233: an address of another device among the interrupts of the race. -/
theorem test_getCommand_other_device :
    refusal (exec .getCommand (tinyReset.withRaces [[.readAddr, .interrupt (.addrMatch 0x11 .write),
      .interrupt (.addrMatch 0x20 .read)]])) = some (.addressNotMatched 0x20) := by decide
/-- R173's example. -/
theorem test_rdClick :
    after (fun s => (firstBytes 4 s, s.regs.clickCount)) (exec .rdClick (bus 1 .read 0 0 0x01020304)) =
      some ([1, 2, 3, 4], 0) := by decide
/-- V-B1's register: −2 is sent as `FF FF FF FE`. -/
theorem test_rdValue :
    after (fun s => (firstBytes 4 s, s.regs.value)) (exec .rdValue (bus 0 .read 0 (-2) 0)) =
      some ([0xFF, 0xFF, 0xFF, 0xFE], 0) := by decide
/-- V-B3. -/
theorem test_rdOther : after (fun s => (s.scr.size, s.regs.value)) (exec (.rdOther 5) (bus 5 .read 0 5 0)) = some (0, 5) := by decide
/-- V-B5: `80 00 00 01` is −2147483647. -/
theorem test_wrValue :
    after (fun s => s.regs.value.toInt) (exec .wrValue
      (tinyReset.withScr { tinyReset.scr with buffer := storeBe32 tinyReset.scr.buffer 0x80000001 })) =
      some (-2147483647) := by decide
theorem test_wrClick :
    after (fun s => s.regs.clickCount.toNat) (exec .wrClick
      (tinyReset.withScr { tinyReset.scr with buffer := storeBe32 tinyReset.scr.buffer 0xFFFFFFFF })) =
      some 4294967295 := by decide
/-- V-B7: the first byte, not the second. -/
theorem test_wrIllumType :
    after (fun s => s.regs.illumType) (exec .wrIllumType
      (tinyReset.withScr { tinyReset.scr with buffer := storeBe32 tinyReset.scr.buffer 0x02090000 })) = some 2 := by decide
theorem test_wrIllumData :
    after (fun s => s.regs.illumData.toList.take 3) (exec .wrIllumData
      (tinyReset.withScr { tinyReset.scr with buffer := storeBe32 tinyReset.scr.buffer 0x01020304, size := 2 })) =
      some [1, 2, 0] := by decide
/-- V-B15. -/
theorem test_wrOther :
    after (fun s => decide (s.regs = (bus 2 .write 1 5 6).regs)) (exec (.wrOther 2) (bus 2 .write 1 5 6)) = some true := by decide

/-! ### The host: V-H1, V-H2, P6, for every order of its sub-steps -/

/-- V-H1: from type 0, an increment of −1 gives type 2. -/
theorem test_ctrlTick_adjust_wraps :
    ∀ o : Fin 6, after (fun s => (s.host.animationType, s.disp.intensity)) (ctrlTickWith (draw o) (host .adjust 0 0 0 (-1) 0)) =
      some (2, [0, 0, 0xFF, 0, 0, 0]) := by decide
/-- P6 with `N = 6`: at the threshold, focus 1 at full, 0 and N−1 at partial. -/
theorem test_ctrlTick_comet :
    ∀ o : Fin 6, after (fun s => (s.host.speed, s.host.focus, s.host.counter, s.disp.intensity))
      (ctrlTickWith (draw o) (host .normal 0 99996 4 3 0)) = some (7, 1, 0, [127, 0xFF, 0, 0, 0, 127]) := by decide
/-- V-H6: a first seen click command toggles the mode, whatever its payload. -/
theorem test_ctrlTick_click_command :
    ∀ o : Fin 6, after (fun s => s.host.mode) (ctrlTickWith (draw o) (bus 1 .write 0 0 0)) = some .adjust := by decide

/-! ### Witnesses: for every obligation with hypotheses, values that meet them all -/

theorem tiny_tables : tinyReset.disp.Shaped tiny ∧ tinyReset.disp.PlanesFollow tiny ∧ tinyReset.disp.TablesFollow tiny ∧
    tinyReset.disp.TablesElsewhereZero tiny := ⟨by decide, by decide, by decide, by decide⟩

theorem tiny_display : tinyReset.DisplayOk :=
  ⟨tiny_tables.1, tiny_tables.2.1, tiny_tables.2.2.1, tiny_tables.2.2.2, by decide, by decide⟩

theorem tiny_inv : tinyReset.Inv := ⟨by decide, by decide, tiny_display, by decide, by decide⟩

theorem witness_DecodeEncodeRoundTrip :
    Instr.wf (.setLed (-1) 5) = true ∧ Instr.wf (.rdOther 2) = true ∧ Instr.wf (.wrOther 127) = true := by decide

theorem witness_EncodeDecodeRoundTrip : decode [0x00, 0x01] = some .pressEdge := by decide

theorem witness_StepRunsTheDeliveredOperation :
    tinyReset.inbox = [] ∧ (tinyReset.withInbox [[0x00, 0x01]]).inbox = [[0x00, 0x01]] ∧
    decode [0x00, 0x01] = some .pressEdge ∧ decode [0x09, 0x09] = none := by decide

theorem witness_RotEdgeWhileIdleAddsItsDirection : (dec 5 0 0).dec.lockout = 0 := by decide

theorem witness_PressEdgeWhileIdleCountsOne : (dec 0 255 0).dec.lockout = 0 := by decide

theorem witness_EdgesWhileLockedAreIgnored : 0 < (dec 0 0 1).dec.lockout := by decide

theorem witness_DecTickCountsTheLockoutDown : 0 < (dec 0 0 1).dec.lockout ∧ (dec 0 0 0).dec.lockout = 0 := by decide

theorem witness_DebouncedTurnsSum :
    tinyReset.idle = true ∧ tinyReset.dec.increment = 0 ∧
    spacedEdges 3 3 [.rotEdge true, .decTick, .decTick, .decTick, .rotEdge true] = true ∧
    after decOf (runOps [.rotEdge true, .decTick, .decTick, .decTick, .rotEdge true] tinyReset) = some (2, 0, 3) := by
  decide

theorem witness_DebounceWindowIsExact :
    tinyReset.idle = true ∧ Instr.format (.rotEdge true) = .edge ∧
    after decOf (exec (.rotEdge true) tinyReset) = some (1, 0, 3) ∧
    List.count Instr.decTick [.decTick, .decTick] + 1 = tinyReset.cfg.lockoutTicks := by decide

theorem witness_AtMostOneEdgeBetweenTicks :
    1 ≤ tinyReset.cfg.lockoutTicks ∧ Instr.format (.rotEdge true) = .edge ∧ Instr.format .pressEdge = .edge ∧
    Instr.decTick ∉ [Instr.dispTick, .drainIncrement, .rotEdge false] ∧
    after decOf (runOps (.rotEdge true :: [Instr.dispTick, .drainIncrement, .rotEdge false]) tinyReset) = some (0, 0, 3) ∧
    tinyReset.DecoderOk ∧
    (∀ i ∈ [Instr.rotEdge true, .decTick, .decTick, .decTick, .pressEdge],
      i ≠ .drainIncrement ∧ i ≠ .drainClicks ∧ i ≠ .ctrlTick) ∧
    after decOf (runOps [.rotEdge true, .decTick, .decTick, .decTick, .pressEdge] tinyReset) = some (1, 1, 3) := by decide

theorem witness_SetLedWritesOnlyItsTableBits : tiny.Wf ∧ tinyReset.disp.Shaped tiny ∧ 5 < tiny.nLeds := by
  exact ⟨by decide, tiny_tables.1, by decide⟩

theorem witness_SetLedOutOfRangeIsRefused : (-1 : Int) < 0 ∧ (tinyReset.cfg.nLeds : Int) ≤ 6 := by decide

theorem witness_SetLedWaitsForTheNextActivation :
    after (fun t => t.disp.bitplane) (exec (.setLed 0 255) (atSlot 2 1 0)) = some [3, 0, 0, 0, 0, 0] ∧
    (atSlot 2 1 0).disp.dwellCounter + 1 < dwellOf tiny 2 1 := by decide

theorem witness_DispTickWithinTheDwellCounts : (atSlot 2 1 0).disp.dwellCounter + 1 < dwellOf tiny 2 1 := by decide

theorem witness_DispTickTransitionClearsThenSets :
    tiny.Wf ∧ (atSlot 2 1 1).disp.scanPhase < tiny.nPins ∧ dwellOf tiny 2 1 ≤ (atSlot 2 1 1).disp.dwellCounter + 1 := by
  decide

theorem witness_PinsAreClearedBeforeTheyAreSet :
    after (fun t => t.pins) (exec .dispTick (atSlot 2 1 1)) = some [.H, .Z, .Z] ∧
    dwellOf tiny 2 1 ≤ (atSlot 2 1 1).disp.dwellCounter + 1 := by decide

theorem witness_AtMostOnePhaseIsDriven :
    tiny.Wf ∧ (atSlot 2 1 1).disp.ScanOk tiny ∧ (atSlot 2 1 1).disp.PinsOk tiny ∧
    after (fun t => t.pins) (exec .dispTick (atSlot 2 1 1)) = some [.H, .Z, .Z] := by
  exact ⟨by decide, by decide, by decide, by decide⟩

/-- Slot (0, 0) just activated, LED 0 at its brightest. -/
def frameStart : State :=
  (setLedAt 0 0xFF tinyReset).withDisp
    { (setLedAt 0 0xFF tinyReset).disp with out := [true, false, false], dir := [true, true, false] }

theorem witness_FrameDutyIsTheTruncatedIntensity :
    frameStart.cfg.Wf ∧ frameStart.DisplayOk ∧ frameStart.atFrameStart ∧ 0 < frameStart.cfg.nLeds ∧
    frameStart.cfg.dwell = defaultDwell frameStart.cfg.nPins frameStart.cfg.nPlanes := by
  refine ⟨by decide, ⟨by decide, by decide, by decide, by decide, by decide, by decide⟩, ?_, by decide, by decide⟩
  unfold State.atFrameStart
  decide

theorem witness_FirstSlotIsDark : tiny.Wf := by decide

theorem witness_AddrMatchForWriteOnlyStartsTheScratchOver :
    ∀ a ∈ [(0x10 : Addr), 0x17], a &&& ~~~tiny.busMask = tiny.busBase := by decide

theorem witness_AddressesOfOtherDevicesAreRefused :
    (∀ a ∈ [(0 : Addr), 0x0F, 0x18, 0x7F], a &&& ~~~tiny.busMask ≠ tiny.busBase) ∧
    RaceItem.interrupt (.addrMatch 0x18 .read) ∈ (tinyReset.withRaces [[.interrupt (.addrMatch 0x18 .read)]]).race := by
  decide

theorem witness_ReadOfValueClearsIt :
    (0x10 : Addr) &&& ~~~tiny.busMask = tiny.busBase ∧ (0x10 : Addr) &&& tiny.busMask = 0 := by decide

theorem witness_ReadOfClickCountClearsIt :
    (0x11 : Addr) &&& ~~~tiny.busMask = tiny.busBase ∧ (0x11 : Addr) &&& tiny.busMask = 1 := by decide

theorem witness_ReadOfOtherOffsetsIsEmpty :
    (∀ a ∈ [(0x12 : Addr), 0x13, 0x14, 0x15, 0x17],
      a &&& ~~~tiny.busMask = tiny.busBase ∧ a &&& tiny.busMask ≠ 0 ∧ a &&& tiny.busMask ≠ 1) ∧
    ∀ off ∈ [(2 : Addr), 3, 4, 5, 127], off ≠ 0 ∧ off ≠ 1 := by decide

theorem witness_ByteReadyRdPopsTheReply :
    (tinyReset.withBusError true).busError = true ∧ (bus 0 .read 0 0 0).scr.size ≤ (bus 0 .read 0 0 0).scr.offset ∧
    (bus 0 .read 1 0 0).scr.offset < (bus 0 .read 1 0 0).scr.size ∧ (bus 0 .read 1 0 0).scr.offset < 20 ∧
    (bus 0 .read 1 0 0).busError = false := by decide

theorem witness_ByteReadyWrStoresAndCommits :
    (tinyReset.withBusError true).busError = true ∧ 20 ≤ (bus 0 .write 20 0 0).scr.size ∧
    (bus 0 .write 19 0 0).scr.size < 20 ∧ (bus 0 .write 3 0 0).scr.latchedAddress = 0 ∧
    (bus 1 .write 3 0 0).scr.latchedAddress = 1 ∧ (bus 3 .write 0 0 0).scr.size = 0 ∧
    (bus 0 .write 3 0 0).busError = false := by decide

theorem witness_FourByteWritesOverwrite :
    (bus 0 .write 3 0 0).busError = false ∧ (bus 0 .write 3 0 0).scr.size = 3 ∧
    (bus 0 .write 3 0 0).scr.latchedAddress = 0 ∧ (bus 1 .write 3 0 0).scr.latchedAddress = 1 := by decide

theorem witness_WriteOfIllumTypeTakesTheFirstByte :
    (bus 3 .write 0 0 0).busError = false ∧ (bus 3 .write 0 0 0).scr.latchedAddress = 3 ∧
    (bus 3 .write 0 0 0).scr.size = 0 := by decide

theorem witness_WriteOfOtherOffsetsNeverCommits :
    ∀ x ∈ [(2 : Addr), 5, 127], (bus x .write 0 0 0).scr.latchedAddress ≠ 0 ∧ x ≠ 1 ∧ x ≠ 3 ∧ x ≠ 4 := by decide

theorem witness_AbandonedTransactionHasNoEffect :
    (tinyReset.withBusError true).busError = true ∧ Instr.format .stop = .busev ∧
    Instr.format (.byteReadyWr 1) = .busev ∧ (∀ a d, Instr.stop ≠ .addrMatch a d) := by
  exact ⟨by decide, by decide, by decide, by intros; simp⟩

theorem witness_WrittenValueIsReadBackOnce : tiny.BusOk := by decide

theorem witness_ShortWritesCommitNothing : tiny.BusOk ∧ ([1, 2, 3] : List Byte).length < 4 := by decide

theorem witness_LongWritesCommitOnce : tiny.BusOk ∧ 4 ≤ ([1, 2, 3, 4] : List Byte).length := by decide

theorem witness_UnusedSelectorsHaveNoEffect :
    tiny.BusOk ∧ (∀ off ∈ [(2 : Addr), 3, 4, 5, 7], off &&& tiny.busMask = off) ∧
    tinyReset.undisturbed := by
  unfold State.undisturbed; decide

theorem witness_GetCommandReadsTheScratch : tinyReset.undisturbed := by
  unfold State.undisturbed; decide

theorem witness_EdgeAndBusOperationsCommute :
    Instr.agent (.rotEdge true) = .edge ∧ Instr.agent (.addrMatch 0x10 .read) = .bus ∧
    Instr.inRange tinyReset.cfg (.addrMatch 0x10 .read) = true := by decide

theorem witness_GetCommandReadsAreSingleReads :
    (tinyReset.withRaces [[.readAddr, .interrupt (.addrMatch 0x11 .write), .readSize]]).raceInRange := by
  intro a d h
  simp [State.race] at h
  obtain ⟨rfl, rfl⟩ := h
  decide

theorem witness_AgentsWriteOnlyTheirOwnState :
    after decOf (exec .pressEdge tinyReset) = some (0, 1, 3) ∧ Instr.agent .pressEdge = .edge ∧
    Instr.agent .busError = .bus ∧ Instr.agent .dispTick = .sched ∧ Instr.agent .drainClicks = .host ∧
    tinyReset.undisturbed ∧ after decOf (exec .drainClicks tinyReset) = some (0, 0, 0) := by
  refine ⟨by decide, by decide, by decide, by decide, by decide, ?_, by decide⟩
  unfold State.undisturbed; decide

theorem witness_ResponderIsIsolated :
    Instr.agent .byteReadyRd = .bus ∧ tinyReset.undisturbed ∧ Instr.agent .pressEdge = .edge ∧
    Instr.agent .decTick = .sched := by
  unfold State.undisturbed; decide

theorem witness_ParametersNeverChange : after decOf (exec .decTick tinyReset) = some (0, 0, 0) := by decide

theorem witness_EveryBlockOperationCompletes :
    Instr.setLed 5 1 ≠ .ctrlTick ∧ Instr.inRange tinyReset.cfg (.setLed 0 1) = true ∧
    Instr.inRange tinyReset.cfg (.setLed 5 1) = true ∧ Instr.inRange tinyReset.cfg (.addrMatch 0x17 .read) = true ∧
    Instr.inRange tinyReset.cfg .getCommand = true ∧ tinyReset.raceInRange := by
  refine ⟨by decide, by decide, by decide, by decide, by decide, ?_⟩
  intro a d h
  simp [State.race, tinyReset, State.resetWith] at h

theorem witness_ResetMeetsTheInvariant : referenceConfig.Wf := by decide

theorem witness_StepKeepsTheInvariant :
    (tinyReset.withInbox [[0x02, 0x01]]).Inv ∧
    (∀ f ∈ (tinyReset.withInbox [[0x02, 0x01]]).inbox.head?, ∀ i, decode f = some i → i.isOperation = true) ∧
    after (fun t => t.disp.scanPhase) (step (tinyReset.withInbox [[0x02, 0x01]])) = some 1 := by
  refine ⟨tiny_inv, ?_, by decide⟩
  intro f hf i hi
  simp at hf
  subst hf
  have e : i = .dispTick := by
    have h : decode [0x02, 0x01] = some .dispTick := by decide
    exact Option.some.inj (hi.symm.trans h)
  subst e
  decide

theorem witness_ReplySizeIsZeroOrFour :
    tinyReset.ReplySizeOk ∧ Instr.isOperation (.addrMatch 0x10 .read) = true ∧
    Instr.keepsDirection tinyReset.scr.direction (.addrMatch 0x10 .read) = true ∧ tinyReset.undisturbed ∧
    after (fun t => t.scr.size) (exec (.addrMatch 0x10 .read) tinyReset) = some 4 := by
  refine ⟨by decide, by decide, by decide, ?_, by decide⟩
  unfold State.undisturbed; decide

/-- Any host state built on `tinyReset` by `host` meets the invariant if its bounds hold. -/
theorem host_inv (m : Mode) (kind counter : Nat) (speed inc : Int) (clicks : Nat) (hk : kind < 3) (hc : clicks < 256) :
    (host m kind counter speed inc clicks).Inv := by
  refine ⟨(by decide : tiny.Wf), ⟨hc, by simp [host]⟩, tiny_display, (by decide : tinyReset.ScratchOk), ?_⟩
  exact ⟨by simp [host, HostState.reset, tinyReset, State.resetWith, tiny, defaultConfig], hk,
    by simp [host, HostState.reset]⟩

theorem host_undisturbed (m : Mode) (kind counter : Nat) (speed inc : Int) (clicks : Nat) :
    (host m kind counter speed inc clicks).undisturbed := rfl

theorem witness_CtrlTickCompletes : tinyReset.Inv ∧ 3 ≤ tinyReset.cfg.nLeds ∧ tinyReset.raceInRange :=
  ⟨tiny_inv, by decide, witness_EveryBlockOperationCompletes.2.2.2.2.2⟩

/-- "No command" at its boundaries: the reset scratch, `value` with three bytes and with five, selector 2. -/
theorem test_noCommand :
    tinyReset.noCommand ∧ (bus 0 .write 3 0 0).noCommand ∧ (bus 0 .write 5 0 0).noCommand ∧ (bus 2 .write 4 0 0).noCommand ∧
    ¬ (bus 0 .write 4 0 0).noCommand ∧ ¬ (bus 1 .write 0 0 0).noCommand := by
  decide

/-- The start of the scenario with the reset scratch: no bus transaction has been. -/
def scenario : State := (host .normal 0 0 4 3 0).withScr tinyReset.scr

theorem witness_ThreeIncrementsAdvanceOneFrame :
    scenario.Inv ∧ 3 ≤ scenario.cfg.nLeds ∧ scenario.host.mode = .normal ∧ scenario.host.animationType = 0 ∧
    scenario.host.speed = 4 ∧ scenario.host.focus = 0 ∧ scenario.host.counter = 0 ∧ scenario.host.injected = 0 ∧
    scenario.dec.increment = 3 ∧ scenario.dec.clicks = 0 ∧ scenario.noCommand ∧ (∀ r ∈ scenario.races, r = []) :=
  ⟨⟨by decide, by decide, tiny_display, by decide, by decide⟩, by decide, by decide, by decide, by decide, by decide,
    by decide, by decide, by decide, by decide, .inr (by decide), by decide⟩

theorem witness_NormalTickPacesTheFrames :
    (host .normal 0 99995 4 3 0).Inv ∧ (host .normal 0 99995 4 3 0).undisturbed ∧
    (host .normal 0 99995 4 3 0).host.mode = .normal ∧ (host .normal 0 99995 4 3 0).dec.clicks = 0 ∧
    (host .normal 0 99995 4 3 0).noCommand ∧ (99995 : Nat) + max 1 (4 : Int).natAbs < 100000 ∧
    (host .normal 0 99996 4 3 0).Inv ∧ (100000 : Nat) ≤ 99996 + max 1 (4 : Int).natAbs :=
  ⟨host_inv _ _ _ _ _ _ (by decide) (by decide), host_undisturbed .., by decide, by decide, by decide, by decide,
    host_inv _ _ _ _ _ _ (by decide) (by decide), by decide⟩

theorem witness_CometFramesShowFocusAndTail :
    (host .normal 1 99996 4 3 0).Inv ∧ (host .normal 1 99996 4 3 0).undisturbed ∧
    (host .normal 1 99996 4 3 0).host.mode = .normal ∧ (host .normal 1 99996 4 3 0).host.animationType < 2 ∧
    (host .normal 1 99996 4 3 0).dec.clicks = 0 ∧ (host .normal 1 99996 4 3 0).noCommand ∧
    (100000 : Nat) ≤ (host .normal 1 99996 4 3 0).host.counter +
      max 1 (host .normal 1 99996 4 3 0).host.speed.natAbs ∧
    (host .normal 0 99996 4 3 0).Inv ∧ (host .normal 0 99996 4 3 0).host.animationType = 0 :=
  ⟨host_inv _ _ _ _ _ _ (by decide) (by decide), host_undisturbed .., by decide, by decide, by decide, by decide,
    by decide, host_inv _ _ _ _ _ _ (by decide) (by decide), by decide⟩

theorem witness_SweepFrameEndsWithTheFocus :
    (host .normal 2 99996 4 3 0).Inv ∧ (host .normal 2 99996 4 3 0).undisturbed ∧
    (host .normal 2 99996 4 3 0).host.animationType = 2 ∧ (host .normal 2 99996 4 3 0).host.mode = .normal ∧
    (host .normal 2 99996 4 3 0).dec.clicks = 0 ∧ (host .normal 2 99996 4 3 0).noCommand ∧
    (100000 : Nat) ≤ (host .normal 2 99996 4 3 0).host.counter +
      max 1 (host .normal 2 99996 4 3 0).host.speed.natAbs :=
  ⟨host_inv _ _ _ _ _ _ (by decide) (by decide), host_undisturbed .., by decide, by decide, by decide, by decide,
    by decide⟩

theorem witness_AdjustTickCyclesTheAnimation :
    (host .adjust 0 0 0 (-1) 0).Inv ∧ (host .adjust 0 0 0 (-1) 0).undisturbed ∧
    (host .adjust 0 0 0 (-1) 0).host.mode = .adjust ∧ 3 ≤ (host .adjust 0 0 0 (-1) 0).cfg.nLeds ∧
    (host .adjust 0 0 0 (-1) 0).dec.clicks = 0 ∧ (host .adjust 0 0 0 (-1) 0).noCommand :=
  ⟨host_inv _ _ _ _ _ _ (by decide) (by decide), host_undisturbed .., by decide, by decide, by decide, by decide⟩

theorem witness_ClickTogglesTheModeOnce :
    (host .adjust 0 0 0 0 1).Inv ∧ (host .adjust 0 0 0 0 1).undisturbed ∧ (host .adjust 0 0 0 0 1).dec.clicks = 1 ∧
    3 ≤ (host .adjust 0 0 0 0 1).cfg.nLeds ∧ (host .adjust 0 0 0 0 1).noCommand ∧
    (host .adjust 0 0 0 0 1).host.mode = .adjust ∧
    (host .adjust 0 0 0 0 1).host.counter + max 1 (host .adjust 0 0 0 0 1).host.speed.natAbs < 100000 :=
  ⟨host_inv _ _ _ _ _ _ (by decide) (by decide), host_undisturbed .., by decide, by decide, by decide, by decide,
    by decide⟩

/-- The reset scratch holds `value` with no byte: the clause of another length. For the other clauses only the scratch
and the mode differ. -/
theorem witness_FirstSeenCommandIsDispatched :
    tinyReset.Inv ∧ 3 ≤ tinyReset.cfg.nLeds ∧ tinyReset.dec.clicks = 0 ∧ tinyReset.undisturbed ∧
    tinyReset.commandDiffers ∧ tinyReset.host.counter + max 1 tinyReset.host.speed.natAbs < 100000 ∧
    tinyReset.scr.latchedAddress = 0 ∧ tinyReset.scr.size ≠ 4 ∧
    (bus 0 .write 4 0 0).Inv ∧ (bus 0 .write 4 0 0).scr.size = 4 ∧ (bus 0 .write 4 0 0).host.mode = .normal ∧
    ((bus 0 .write 4 0 0).withHost { HostState.reset with mode := .adjust }).Inv ∧
    (bus 1 .write 0 0 0).Inv ∧ (bus 1 .write 0 0 0).scr.latchedAddress = 1 ∧
    ((bus 0 .write 4 0 0).withHost { HostState.reset with lastCommand := some (0, [0, 0, 0, 1]) }).commandDiffers :=
  ⟨tiny_inv, by decide, by decide, rfl, fun _ h => absurd h (by simp [tinyReset, State.resetWith, HostState.reset]),
    by decide, by decide, by decide,
    ⟨by decide, by decide, tiny_display, by decide, by decide⟩, by decide, by decide,
    ⟨by decide, by decide, tiny_display, by decide, by decide⟩,
    ⟨by decide, by decide, tiny_display, by decide, by decide⟩, by decide,
    fun old h => .inr ⟨by decide, by cases h; decide⟩⟩

end Sys2Proof.Tests
end

section
/-! SUPPORT. Proofs for spec/20_memory.md: the clear-then-set scan transition (R82) and writes shorter than a register's
width (R66). -/

namespace Sys2Proof.Machine

/-! ### The scan transition (R82, R143) -/

theorem dispTick_of_dwell_reached {s : State}
    (h : dwellOf s.cfg s.disp.scanPhase s.disp.scanCycle ≤ s.disp.dwellCounter + 1) :
    dispTick s = scanTransition s := if_pos h

/-- What a scan transition shows: all pins `Z`, then the pin state it leaves. -/
theorem scanTransition_trace (s : State) :
    (scanTransition s).trace =
      s.trace ++ [.pins (List.replicate s.cfg.nPins .Z), .pins (scanTransition s).pins] := by
  rw [scanTransition_eq]; rfl

/-- `OUT` has one bit after a scan transition, so only that pin can be `H`. -/
theorem drivenHigh_scanTransition (s : State) : drivenHigh (scanTransition s).pins ≤ 1 := by
  rw [scanTransition_eq]
  refine drivenHigh_le_one (ph := (nextSlot s.cfg s.disp.scanPhase s.disp.scanCycle).1) fun k hk => ?_
  have hout := (pinAt_eq_H.1 hk).2
  rw [onehot_getD, Bool.and_eq_true, decide_eq_true_eq, decide_eq_true_eq] at hout
  exact hout.2

/-- Settles O19: at the dwell a tick is a scan transition, which shows the two pin states in this order. -/
theorem pinsAreClearedBeforeTheyAreSet : Obligations.PinsAreClearedBeforeTheyAreSet := by
  intro s t h hdwell
  have ht : scanTransition s = t := by
    rw [← dispTick_of_dwell_reached hdwell]
    exact Host.Outcome.next.inj h
  subst ht
  exact ⟨scanTransition_trace s, drivenHigh_scanTransition s⟩

/-! ### Bus addresses (R97) -/

/-- The device answers its base address with an offset inside the mask. -/
theorem addressMatched_base_or {c : Config} {off : Addr} (hc : c.BusOk) (hoff : off &&& c.busMask = off) :
    addressMatched c (c.busBase ||| off) = true := by
  have hdisjoint : c.busBase &&& c.busMask = 0#7 := hc.1
  have hout : off &&& ~~~c.busMask = 0#7 := by
    rw [← hoff, BitVec.and_assoc, BitVec.and_not_self]
    exact BitVec.and_zero
  have hbase : c.busBase &&& ~~~c.busMask = c.busBase := by
    calc c.busBase &&& ~~~c.busMask
        = (c.busBase &&& c.busMask) ||| (c.busBase &&& ~~~c.busMask) := by rw [hdisjoint, BitVec.zero_or]
      _ = c.busBase := by rw [← BitVec.and_or_distrib_left, BitVec.or_not_self, BitVec.and_allOnes]
  rw [addressMatched, beq_iff_eq, BitVec.and_or_distrib_right, hbase, hout, BitVec.or_zero]

/-- The offset latched from such an address is that offset. -/
theorem registerOffset_base_or {c : Config} {off : Addr} (hc : c.BusOk) (hoff : off &&& c.busMask = off) :
    registerOffset c (c.busBase ||| off) = off := by
  have hdisjoint : c.busBase &&& c.busMask = 0#7 := hc.1
  rw [registerOffset, BitVec.and_or_distrib_right, hdisjoint, hoff, BitVec.zero_or]

/-- The mask of R8 keeps the offsets 0 to 7. -/
theorem and_busMask_of_and_seven {c : Config} {off : Addr} (hc : c.BusOk) (h : off &&& 7 = off) :
    off &&& c.busMask = off := by
  have hmask : c.busMask &&& 7 = 7 := hc.2
  rw [← h, BitVec.and_assoc, BitVec.and_comm 7, hmask]

/-- A register of fixed width has an offset below 8 other than that of `illum_data`, and at most four bytes (R170). -/
theorem registerWidth_eq_some {off : Addr} {w : Nat} (h : registerWidth off = some w) :
    off &&& 7 = off ∧ off ≠ 4 ∧ w ≤ 4 := by
  rw [registerWidth_eq] at h
  split at h
  next h01 =>
    cases h
    rcases h01 with rfl | rfl <;> decide
  next =>
    split at h
    next h3 => cases h; subst h3; decide
    next => cases h

/-! ### Bytes appended to the scratch (R176) -/

theorem Scratch.foldl_append_latchedAddress (bytes : List Byte) (c : Scratch) :
    (bytes.foldl .append c).latchedAddress = c.latchedAddress := by
  induction bytes generalizing c with
  | nil => rfl
  | cons b bytes ih => simp [ih]

theorem Scratch.foldl_append_size (bytes : List Byte) (c : Scratch) :
    (bytes.foldl .append c).size = c.size + bytes.length := by
  induction bytes generalizing c with
  | nil => rfl
  | cons b bytes ih => simp [ih]; omega

/-- Appending a byte below the capacity lengthens the valid part of the buffer by that byte. -/
theorem Scratch.append_valid (c : Scratch) (b : Byte) (h : c.size < Config.bufCap) :
    (c.append b).buffer.toList.take (c.append b).size = c.buffer.toList.take c.size ++ [b] := by
  have hlen : c.size < c.buffer.toList.length := by simpa using h
  simp only [append_buffer, append_size, Vector.toList_setIfInBounds, List.take_add_one, List.take_set_of_le le_rfl,
    List.getElem?_set_self hlen, Option.toList_some]

/-- Within the capacity the valid part of the buffer is lengthened by the bytes, in order. -/
theorem Scratch.foldl_append_valid (bytes : List Byte) (c : Scratch) (h : c.size + bytes.length ≤ Config.bufCap) :
    (bytes.foldl .append c).buffer.toList.take (c.size + bytes.length) = c.buffer.toList.take c.size ++ bytes := by
  induction bytes generalizing c with
  | nil => simp
  | cons b bytes ih =>
    rw [List.length_cons] at h
    have hrest := ih (c.append b) (by rw [append_size]; omega)
    rw [c.append_valid b (by omega), List.append_assoc, append_size] at hrest
    rw [List.length_cons, Nat.add_comm bytes.length, ← Nat.add_assoc]
    exact hrest

/-- The state after bytes that were buffered and acknowledged without a commit. -/
def State.buffered (bytes : List Byte) (s : State) : State :=
  { s with scr := bytes.foldl .append s.scr, trace := s.trace ++ List.replicate bytes.length .ack }

@[simp] theorem State.buffered_regs (bytes : List Byte) (s : State) : (s.buffered bytes).regs = s.regs := rfl
@[simp] theorem State.buffered_scr (bytes : List Byte) (s : State) :
    (s.buffered bytes).scr = bytes.foldl .append s.scr := rfl

theorem State.buffered_cons (b : Byte) (bytes : List Byte) (s : State) :
    ((s.withScr (s.scr.append b)).emit .ack).buffered bytes = s.buffered (b :: bytes) := by
  simp [State.buffered, State.withScr, State.emit, List.replicate_succ]

/-! ### Writes shorter than the register's width (R66) -/

/-- A byte that does not reach the register's width is buffered and acknowledged (R176). -/
theorem byteReadyWr_incomplete {s : State} (b : Byte) (he : s.busError = false) (hcap : s.scr.size < Config.bufCap)
    (hw : registerWidth s.scr.latchedAddress ≠ some (s.scr.size + 1)) :
    byteReadyWr b s = (s.withScr (s.scr.append b)).emit .ack := by
  have hcommit : commitIfComplete (s.withScr (s.scr.append b)) = s.withScr (s.scr.append b) := if_neg hw
  rw [byteReadyWr, he, if_neg Bool.false_ne_true, if_pos hcap, hcommit]

/-- Bytes that stay below the register's width are all buffered, none is committed. -/
theorem runOps_byteReadyWr_incomplete (bytes : List Byte) (s : State) (he : s.busError = false)
    (hcap : s.scr.size + bytes.length ≤ Config.bufCap)
    (hw : ∀ w, registerWidth s.scr.latchedAddress = some w → s.scr.size + bytes.length < w) :
    runOps (bytes.map .byteReadyWr) s = .next (s.buffered bytes) := by
  induction bytes generalizing s with
  | nil => simp [State.buffered]
  | cons b bytes ih =>
    rw [List.length_cons] at hcap hw
    have hfirst : exec (.byteReadyWr b) s = .next ((s.withScr (s.scr.append b)).emit .ack) :=
      congrArg _ (byteReadyWr_incomplete b he (by omega) fun h => absurd (hw _ h) (by omega))
    have hrest := ih ((s.withScr (s.scr.append b)).emit .ack) he
      (by simp only [State.emit_scr, State.withScr_scr, Scratch.append_size]; omega)
      fun w h => by
        have := hw w h
        simp only [State.emit_scr, State.withScr_scr, Scratch.append_size]; omega
    rw [List.map_cons, runOps_cons, hfirst, andThen_next, hrest, State.buffered_cons]

/-- `STOP` commits nothing at a selector other than that of `illum_data` (R179). -/
theorem stop_of_ne_four {s : State} (h : s.scr.latchedAddress ≠ 4) : stop s = s :=
  if_neg fun hs => h hs.2.2

/-- A write shorter than the register's width: the address is latched, the bytes are buffered, and that is all. -/
theorem runOps_busWrite_short {s : State} {off : Addr} {bytes : List Byte} {w : Nat} (hc : s.cfg.BusOk)
    (hw : registerWidth off = some w) (hlen : bytes.length < w) :
    runOps (busWrite s.cfg off bytes) s =
      .next ((latchAddress (s.cfg.busBase ||| off) .write s).buffered bytes) := by
  obtain ⟨hseven, hfour, hw4⟩ := registerWidth_eq_some hw
  have hmask := and_busMask_of_and_seven hc hseven
  have hoff := registerOffset_base_or hc hmask
  have haddr : exec (.addrMatch (s.cfg.busBase ||| off) .write) s =
      .next (latchAddress (s.cfg.busBase ||| off) .write s) :=
    execAddrMatch_matched .write (addressMatched_base_or hc hmask)
  have hbytes := runOps_byteReadyWr_incomplete bytes (latchAddress (s.cfg.busBase ||| off) .write s) rfl
    (by simp [latchAddress, Config.bufCap]; omega)
    (by
      intro w' hw'
      obtain rfl : w = w' := Option.some.inj (by rw [← hw, ← hw']; simp [latchAddress, hoff])
      simpa [latchAddress] using hlen)
  have hstop : exec .stop ((latchAddress (s.cfg.busBase ||| off) .write s).buffered bytes) =
      .next ((latchAddress (s.cfg.busBase ||| off) .write s).buffered bytes) :=
    congrArg _ (stop_of_ne_four (by simpa [Scratch.foldl_append_latchedAddress, latchAddress, hoff] using hfour))
  rw [busWrite, List.append_assoc, List.singleton_append, runOps_cons, haddr, andThen_next, runOps_append, hbytes,
    andThen_next, runOps_cons, hstop, andThen_next, runOps_nil]

/-- Settles O37: the bytes are buffered from an empty buffer, and the width is not reached. -/
theorem shortWritesCommitNothing : Obligations.ShortWritesCommitNothing := by
  intro s off bytes hc hshort
  obtain ⟨w, hw, hlen⟩ : ∃ w, registerWidth off = some w ∧ bytes.length < w := by
    rcases hshort with ⟨rfl | rfl, hlen⟩ | ⟨rfl, rfl⟩
    · exact ⟨4, rfl, hlen⟩
    · exact ⟨4, rfl, hlen⟩
    · exact ⟨1, rfl, Nat.one_pos⟩
  obtain ⟨hseven, -, hw4⟩ := registerWidth_eq_some hw
  have hoff := registerOffset_base_or hc (and_busMask_of_and_seven hc hseven)
  refine ⟨_, runOps_busWrite_short hc hw hlen, rfl, ?_, ?_, ?_⟩
  · simpa [Scratch.foldl_append_latchedAddress, latchAddress] using hoff
  · simp [Scratch.foldl_append_size, latchAddress]
  · have h := Scratch.foldl_append_valid bytes (s.scr.latch off .write) (by simp [Config.bufCap]; omega)
    simpa [latchAddress, hoff] using h

end Sys2Proof.Machine
end

section
/-! SUPPORT. Proof for spec/40_rotary_decoder.md: `DEC_TICK` counts the lockout down (R124). -/

namespace Sys2Proof.Machine

/-- `LOCKED` is 0 exactly at lockout 0 (R24). -/
theorem State.locked_eq_false {s : State} : s.locked = false ↔ s.dec.lockout = 0 := by
  simp [State.locked]

/-- `DEC_TICK` completes. -/
theorem exec_decTick (s : State) : exec .decTick s = .next (decTick s) := rfl

/-- The subtraction of `Nat` stops at 0 (R124). -/
theorem decTick_lockout (s : State) : (decTick s).dec.lockout = s.dec.lockout - 1 := rfl

/-- `DEC_TICK` changes the lockout at most. -/
theorem decTick_frame (s : State) :
    decTick s = { s with dec := { s.dec with lockout := (decTick s).dec.lockout } } := rfl

/-- Settles O9: the lockout afterwards is the one before less 1, stopped at 0. -/
theorem decTickCountsTheLockoutDown : Obligations.DecTickCountsTheLockoutDown := by
  intro s
  refine ⟨decTick s, exec_decTick s, decTick_frame s, fun hlocked => ?_, fun hidle => ?_, ?_⟩
  · rw [decTick_lockout, Nat.sub_add_cancel hlocked]
  · rw [decTick_lockout, hidle]
  · rw [State.locked_eq_false, decTick_lockout, Nat.sub_eq_zero_iff_le]

end Sys2Proof.Machine
end

section
/-! SUPPORT. Proofs for spec/30_encoding.md: the frames and the operations they stand for (R104, assumption log 2), and
the step that runs a delivered frame (R261). -/

namespace Sys2Proof

/-! ### Selectors (R104) -/

/-- The direction is the top bit of a selector, above the offset. -/
theorem selector_toNat (d : Direction) (off : Addr) :
    (selector d off).toNat = (match d with | .read => 128 | .write => 0) + off.toNat := by
  cases d
  · have h := Nat.shiftLeft_add_eq_or_of_lt off.isLt 1
    simp only [selector, BitVec.toNat_append] at *
    simpa using h.symm
  · simp only [selector, BitVec.toNat_append, BitVec.toNat_ofNat]
    simp

/-- Every byte is the selector of its low seven bits, in the direction of its top bit. -/
theorem eq_selector (sel : Byte) :
    sel = selector (if sel.toNat < 128 then .write else .read) (BitVec.ofNat 7 sel.toNat) := by
  have hsel := sel.isLt
  apply BitVec.eq_of_toNat_eq
  rw [selector_toNat, BitVec.toNat_ofNat]
  split_ifs <;> dsimp only <;> omega

/-- The access a read selector names. -/
theorem decode_selector_read (off : Addr) :
    decode [selector .read off] =
      some (if off = 0 then .rdValue else if off = 1 then .rdClick else .rdOther off) := by
  revert off; decide

/-- The access a write selector names. -/
theorem decode_selector_write (off : Addr) :
    decode [selector .write off] =
      some (if off = 0 then .wrValue else if off = 1 then .wrClick else if off = 3 then .wrIllumType
        else if off = 4 then .wrIllumData else .wrOther off) := by
  revert off; decide

/-- Settles O3: the two directions of a selector. -/
theorem everySelectorNamesOneAccess : Obligations.EverySelectorNamesOneAccess := fun off =>
  ⟨decode_selector_read off, decode_selector_write off⟩

/-- Settles O4: each frame is decoded. -/
theorem writtenOutFramesDecode : Obligations.WrittenOutFramesDecode := by
  unfold Obligations.WrittenOutFramesDecode
  decide

/-! ### Positions (assumption log 24) -/

/-- The four bytes of a word, the most significant first, add up to it. -/
theorem toNat_eq_bytes (w : Word) :
    (((w.extractLsb' 24 8).toNat * 256 + (w.extractLsb' 16 8).toNat) * 256 + (w.extractLsb' 8 8).toNat) * 256 +
      (w.extractLsb' 0 8).toNat = w.toNat := by
  have hw := w.isLt
  simp only [BitVec.extractLsb'_toNat, Nat.shiftRight_eq_div_pow]
  omega

/-- A position of 32 bits survives its frame. -/
theorem decodePos_encodePos {pos : Int} (h : -(2 ^ 31 : Int) ≤ pos ∧ pos < 2 ^ 31) :
    decodePos ((BitVec.ofInt 32 pos).extractLsb' 24 8).toNat ((BitVec.ofInt 32 pos).extractLsb' 16 8).toNat
      ((BitVec.ofInt 32 pos).extractLsb' 8 8).toNat ((BitVec.ofInt 32 pos).extractLsb' 0 8).toNat = pos := by
  rw [decodePos, toNat_eq_bytes, BitVec.ofNat_toNat, BitVec.setWidth_eq, BitVec.toInt_ofInt]
  exact Int.bmod_eq_of_le (by omega) (by omega)

/-- A decoded position fits in 32 bits. -/
theorem decodePos_range (p3 p2 p1 p0 : Nat) :
    -(2 ^ 31 : Int) ≤ decodePos p3 p2 p1 p0 ∧ decodePos p3 p2 p1 p0 < 2 ^ 31 :=
  ⟨BitVec.le_toInt _, BitVec.toInt_lt⟩

/-- The frame of a decoded position has the bytes it was decoded from. -/
theorem encodePos_decodePos {p3 p2 p1 p0 : Nat} (h3 : p3 < 256) (h2 : p2 < 256) (h1 : p1 < 256) (h0 : p0 < 256) :
    (encodePos (decodePos p3 p2 p1 p0)).map BitVec.toNat = [p3, p2, p1, p0] := by
  simp only [encodePos, decodePos, BitVec.ofInt_toInt, List.map_cons, List.map_nil, BitVec.extractLsb'_toNat,
    BitVec.toNat_ofNat, Nat.shiftRight_eq_div_pow, List.cons.injEq, and_true]
  omega

/-! ### Frames -/

/-- Settles O1: the selectors one by one, `ADDR_MATCH` by its argument byte, `SET_LED` by its position. -/
theorem decodeEncodeRoundTrip : Obligations.DecodeEncodeRoundTrip := by
  intro i hwf
  cases i with
  | rotEdge level => cases level <;> rfl
  | addrMatch a dir =>
    have ha := a.isLt
    cases dir <;> simp [encode, decode, decodeEvent, selector_toNat, BitVec.ofNat_add]; omega
  | byteReadyWr b => simp [encode, decode, decodeEvent]
  | setLed pos v =>
    have hpos : -(2 ^ 31 : Int) ≤ pos ∧ pos < 2 ^ 31 := by simpa [Instr.wf] using hwf
    simpa [encode, encodePos, decode, decodeEvent] using decodePos_encodePos hpos
  | rdOther off =>
    obtain ⟨h0, h1⟩ : off ≠ 0 ∧ off ≠ 1 := by simpa [Instr.wf] using hwf
    rw [encode, decode_selector_read, if_neg h0, if_neg h1]
  | wrOther off =>
    obtain ⟨h0, h1, h3, h4⟩ : off ≠ 0 ∧ off ≠ 1 ∧ off ≠ 3 ∧ off ≠ 4 := by simpa [Instr.wf] using hwf
    rw [encode, decode_selector_write, if_neg h0, if_neg h1, if_neg h3, if_neg h4]
  | rdValue => exact decode_selector_read 0
  | rdClick => exact decode_selector_read 1
  | wrValue => exact decode_selector_write 0
  | wrClick => exact decode_selector_write 1
  | wrIllumType => exact decode_selector_write 3
  | wrIllumData => exact decode_selector_write 4
  | _ => rfl

/-- A selector that decodes is the frame of the access it names. -/
theorem encode_of_decode_selector {d : Direction} {off : Addr} {i : Instr} (h : decode [selector d off] = some i) :
    i.wf = true ∧ encode i = [selector d off] := by
  cases d
  · rw [decode_selector_read] at h
    cases h
    split_ifs with h0 h1 <;> simp_all [Instr.wf, encode]
  · rw [decode_selector_write] at h
    cases h
    split_ifs with h0 h1 h3 h4 <;> simp_all [Instr.wf, encode]

/-- What an event, tick or call decodes to has the bytes it was decoded from. -/
theorem encode_of_decodeEvent {l : List Nat} {i : Instr} (hl : ∀ x ∈ l, x < 256) (h : decodeEvent l = some i) :
    i.wf = true ∧ (encode i).map BitVec.toNat = l := by
  unfold decodeEvent at h
  split at h
  case h_1 level =>
    split_ifs at h with h0 h1
    · cases h; subst h0; exact ⟨rfl, rfl⟩
    · cases h; subst h1; exact ⟨rfl, rfl⟩
  case h_3 x =>
    cases h
    have hx : x < 256 := hl x (by simp)
    have hsel := congrArg BitVec.toNat (eq_selector (BitVec.ofNat 8 x))
    rw [BitVec.toNat_ofNat, Nat.mod_eq_of_lt hx] at hsel
    exact ⟨rfl, by simp [encode, ← hsel]⟩
  case h_5 b =>
    cases h
    have hb : b < 256 := hl b (by simp)
    exact ⟨rfl, by simpa [encode] using hb⟩
  case h_12 p3 p2 p1 p0 v =>
    cases h
    have hpos := encodePos_decodePos (hl p3 (by simp)) (hl p2 (by simp)) (hl p1 (by simp)) (hl p0 (by simp))
    have hv : v < 256 := hl v (by simp)
    exact ⟨decide_eq_true (decodePos_range p3 p2 p1 p0), by simpa [encode, hpos] using hv⟩
  case h_15 => cases h
  all_goals cases h; exact ⟨rfl, rfl⟩

/-- Settles O2: a selector by its direction and offset, a longer frame by the bytes of its event. -/
theorem encodeDecodeRoundTrip : Obligations.EncodeDecodeRoundTrip := by
  intro f i h
  match f with
  | [] => cases h
  | [sel] =>
    rw [eq_selector sel] at h ⊢
    exact encode_of_decode_selector h
  | b0 :: b1 :: rest =>
    have hbytes : ∀ x ∈ (b0 :: b1 :: rest).map BitVec.toNat, x < 256 := by
      intro x hx
      obtain ⟨b, -, rfl⟩ := List.mem_map.1 hx
      exact b.isLt
    obtain ⟨hwf, hmap⟩ := encode_of_decodeEvent hbytes h
    exact ⟨hwf, List.map_injective_iff.2 (fun _ _ => BitVec.eq_of_toNat_eq) hmap⟩

/-- Settles O5: the three branches of the step. -/
theorem stepRunsTheDeliveredOperation : Obligations.StepRunsTheDeliveredOperation := by
  intro s
  refine ⟨Machine.step_nil, fun f rest hinbox => ⟨fun i hi => ?_, fun hnone => ?_⟩⟩
  · rw [Machine.step_cons hinbox, hi]; rfl
  · rw [Machine.step_cons hinbox, hnone]

end Sys2Proof
end

section
/-! SUPPORT. What an operation can do, said once: a poll-context operation is a sequence of small steps (a drain, a table
write, a change of the host's own state, something shown, an interrupt that preempts it), a tick of the decoder or the
display is one update, and a register access writes the responder. -/

namespace Sys2Proof.Machine

/-! ### What an operation shows, the pins aside -/

/-- Something may have been shown, but no pin state. -/
def Shows (s t : State) : Prop := ∃ shown, t.trace = s.trace ++ shown ∧ ∀ levels, Output.pins levels ∉ shown

theorem Shows.of_eq {s t : State} (h : t.trace = s.trace) : Shows s t := ⟨[], by simp [h], by simp⟩

theorem Shows.refl (s : State) : Shows s s := .of_eq rfl

theorem Shows.trans {s t u : State} (h : Shows s t) (k : Shows t u) : Shows s u := by
  obtain ⟨a, ha, hpa⟩ := h
  obtain ⟨b, hb, hpb⟩ := k
  refine ⟨a ++ b, by rw [hb, ha, List.append_assoc], fun levels hm => ?_⟩
  rcases List.mem_append.1 hm with hm | hm
  · exact hpa levels hm
  · exact hpb levels hm

theorem Shows.emit (s : State) {o : Output} (ho : ∀ levels, o ≠ .pins levels) : Shows s (s.emit o) :=
  ⟨[o], rfl, fun levels hm => ho levels (List.mem_singleton.1 hm).symm⟩

/-! ### Interrupts -/

theorem commitIfComplete_trace (s : State) : (commitIfComplete s).trace = s.trace := by
  rw [commitIfComplete_eq]
  split_ifs <;> simp [wrValue, wrClick, wrIllumType]

theorem populateReply_trace (s : State) : (populateReply s).trace = s.trace := by
  rw [populateReply_eq]
  split_ifs <;> simp [rdValue, rdClick]

theorem addrMatch_trace (a : Addr) (d : Direction) (s : State) :
    (addrMatch a d s).trace = s.trace ++ [.addressAck] := by
  cases d
  · exact populateReply_trace _
  · rfl

theorem acceptEdge_shows (s : State) (d : Decoder) : Shows s (acceptEdge s d) :=
  .of_eq (by rw [acceptEdge_frame, State.withDec_trace])

theorem byteReadyRd_shows (s : State) : Shows s (byteReadyRd s) := by
  unfold byteReadyRd
  split_ifs
  · exact .emit s (by simp)
  · exact ⟨[.data s.scr.head], rfl, by simp⟩
  · exact (Shows.emit s (by simp)).trans (.emit _ (by simp))

theorem byteReadyWr_shows (b : Byte) (s : State) : Shows s (byteReadyWr b s) := by
  unfold byteReadyWr
  split_ifs
  · exact .emit s (by simp)
  · exact ⟨[.ack], congrArg (· ++ [Output.ack]) (commitIfComplete_trace _), by simp⟩
  · exact (Shows.emit s (by simp)).trans (.emit _ (by simp))

theorem stop_trace (s : State) : (stop s).trace = s.trace := by
  unfold stop
  split <;> simp [wrIllumData]

theorem runInterrupt_shows (e : Interrupt) (s : State) : Shows s (runInterrupt e s) := by
  cases e with
  | rotEdge level => exact acceptEdge_shows s _
  | pressEdge => exact acceptEdge_shows s _
  | addrMatch a d => exact ⟨[.addressAck], addrMatch_trace a d s, by simp⟩
  | byteReadyRd => exact byteReadyRd_shows s
  | byteReadyWr b => exact byteReadyWr_shows b s
  | stop => exact .of_eq (stop_trace s)
  | busError => exact .emit _ (by simp)

/-- An interrupt is an edge, which changes the decoder at most, or an event of the responder (R40). -/
theorem runInterrupt_cases (e : Interrupt) (s : State) :
    runInterrupt e s = s.withDec (runInterrupt e s).dec ∨ BusFrame s (runInterrupt e s) := by
  cases e with
  | rotEdge level => exact .inl (acceptEdge_frame s _)
  | pressEdge => exact .inl (acceptEdge_frame s _)
  | addrMatch a d => exact .inr (addrMatch_frame a d s)
  | byteReadyRd => exact .inr (byteReadyRd_frame s)
  | byteReadyWr b => exact .inr (byteReadyWr_frame b s)
  | stop => exact .inr (stop_frame s)
  | busError => exact .inr (busErrorEvent_frame s)

@[simp] theorem runInterrupt_disp (e : Interrupt) (s : State) : (runInterrupt e s).disp = s.disp := by
  rcases runInterrupt_cases e s with h | h
  · rw [h, State.withDec_disp]
  · exact h.disp

@[simp] theorem runInterrupt_host (e : Interrupt) (s : State) : (runInterrupt e s).host = s.host := by
  rcases runInterrupt_cases e s with h | h
  · rw [h, State.withDec_host]
  · exact h.host

@[simp] theorem runInterrupt_races (e : Interrupt) (s : State) : (runInterrupt e s).races = s.races := by
  rcases runInterrupt_cases e s with h | h
  · rw [h, State.withDec_races]
  · exact h.races

/-- The operation of an interrupt does what the interrupt does, if it answers a state. -/
theorem eq_runInterrupt_of_exec {e : Interrupt} {s t : State} (h : exec e.toInstr s = .next t) :
    t = runInterrupt e s := by
  cases e with
  | addrMatch a d =>
    change execAddrMatch a d s = .next t at h
    unfold execAddrMatch at h
    split at h <;> cases h
    rfl
  | _ => cases h; rfl

/-! ### The steps of a poll-context operation -/

/-- What the host does between two reads of the scratch: a drain, a table write, a change of its own state that keeps
R202, something shown. -/
inductive ControlStep (s : State) : State → Prop
  | drainIncrement : ControlStep s (drainIncrement s)
  | drainClicks : ControlStep s (drainClicks s)
  | setLed (pos : Nat) (v : Byte) (hpos : pos < s.cfg.nLeds) : ControlStep s (setLedAt pos v s)
  | host (h : HostState) (ok : s.HostOk → (s.withHost h).HostOk) : ControlStep s (s.withHost h)
  | draws (n : Nat) : ControlStep s (s.withDraws n)
  | emit (o : Output) (ho : ∀ levels, o ≠ .pins levels) : ControlStep s (s.emit o)

/-- A step inside an operation that the interrupts of `irq` may preempt. -/
inductive SubStep (irq : Interrupt → Prop) (s : State) : State → Prop
  | control {t : State} (h : ControlStep s t) : SubStep irq s t
  | interrupt (e : Interrupt) (he : irq e) : SubStep irq s (runInterrupt e s)
  | races (l : List (List RaceItem)) : SubStep irq s (s.withRaces l)

/-- Several steps of the host. -/
abbrev ControlSteps : State → State → Prop := Relation.ReflTransGen ControlStep

/-- Several steps inside an operation. -/
abbrev SubSteps (irq : Interrupt → Prop) : State → State → Prop := Relation.ReflTransGen (SubStep irq)

theorem ControlSteps.subSteps {irq : Interrupt → Prop} {s t : State} (h : ControlSteps s t) : SubSteps irq s t :=
  Relation.ReflTransGen.mono (fun _ _ => .control) _ _ h

theorem SubSteps.mono {p q : Interrupt → Prop} (hpq : ∀ e, p e → q e) {s t : State} (h : SubSteps p s t) :
    SubSteps q s t := by
  have hstep : ∀ u v, SubStep p u v → SubStep q u v := by
    intro u v huv
    cases huv with
    | control hc => exact .control hc
    | interrupt e he => exact .interrupt e (hpq e he)
    | races l => exact .races l
  exact Relation.ReflTransGen.mono hstep _ _ h

theorem ControlStep.cfg_eq {s t : State} (h : ControlStep s t) : t.cfg = s.cfg := by cases h <;> rfl

theorem ControlStep.races_eq {s t : State} (h : ControlStep s t) : t.races = s.races := by cases h <;> rfl

theorem ControlStep.shows {s t : State} (h : ControlStep s t) : Shows s t := by
  cases h with
  | emit o ho => exact .emit s ho
  | drainIncrement => exact .emit _ (by simp)
  | drainClicks => exact .emit _ (by simp)
  | _ => exact .of_eq rfl

theorem ControlSteps.races_eq {s t : State} (h : ControlSteps s t) : t.races = s.races := by
  induction h with
  | refl => rfl
  | tail _ hstep ih => rw [hstep.races_eq, ih]

theorem ControlSteps.cfg_eq {s t : State} (h : ControlSteps s t) : t.cfg = s.cfg := by
  induction h with
  | refl => rfl
  | tail _ hstep ih => rw [hstep.cfg_eq, ih]

theorem SubStep.cfg_eq {irq : Interrupt → Prop} {s t : State} (h : SubStep irq s t) : t.cfg = s.cfg := by
  cases h with
  | control hc => exact hc.cfg_eq
  | interrupt e he => exact runInterrupt_cfg e s
  | races l => rfl

theorem SubStep.shows {irq : Interrupt → Prop} {s t : State} (h : SubStep irq s t) : Shows s t := by
  cases h with
  | control hc => exact hc.shows
  | interrupt e he => exact runInterrupt_shows e s
  | races l => exact .of_eq rfl

theorem SubSteps.cfg_eq {irq : Interrupt → Prop} {s t : State} (h : SubSteps irq s t) : t.cfg = s.cfg := by
  induction h with
  | refl => rfl
  | tail _ hstep ih => rw [hstep.cfg_eq, ih]

theorem SubSteps.shows {irq : Interrupt → Prop} {s t : State} (h : SubSteps irq s t) : Shows s t := by
  induction h with
  | refl => exact .refl s
  | tail _ hstep ih => exact ih.trans hstep.shows

/-! ### Painting and the mode -/

/-- `SET_LED` answers a state only for a position of the table. -/
theorem eq_setLedAt_of_exec {pos : Int} {v : Byte} {s t : State} (h : execSetLed pos v s = .next t) :
    ∃ p, p < s.cfg.nLeds ∧ t = setLedAt p v s := by
  unfold execSetLed at h
  split at h <;> cases h
  exact ⟨pos.toNat, by omega, rfl⟩

theorem controlStep_of_execSetLed {pos : Int} {v : Byte} {s t : State} (h : execSetLed pos v s = .next t) :
    ControlStep s t := by
  obtain ⟨p, hp, rfl⟩ := eq_setLedAt_of_exec h
  exact .setLed p v hp

theorem controlSteps_of_paint {calls : List (Int × Byte)} {s t : State} (h : paint calls s = .next t) :
    ControlSteps s t := by
  induction calls generalizing s with
  | nil => cases h; exact .refl
  | cons q calls ih =>
    rw [paint, andThen_eq_next] at h
    obtain ⟨u, hu, ht⟩ := h
    exact .head (controlStep_of_execSetLed hu) (ih ht)

theorem controlSteps_of_toggleMode {s t : State} (h : toggleMode s = .next t) : ControlSteps s t := by
  unfold toggleMode at h
  refine .head (.host _ ?_) (controlSteps_of_paint h)
  exact fun ok => ok

theorem controlSteps_of_toggleTimes {k : Nat} {s t : State} (h : toggleTimes k s = .next t) : ControlSteps s t := by
  induction k generalizing s with
  | zero => cases h; exact .refl
  | succ k ih =>
    rw [toggleTimes, andThen_eq_next] at h
    obtain ⟨u, hu, ht⟩ := h
    exact (controlSteps_of_toggleMode hu).trans (ih ht)

/-! ### The handlers -/

theorem frameHost_ok (s : State) (h : s.HostOk) : (s.withHost (frameHost s)).HostOk := by
  obtain ⟨hfocus, hkind, hsweep⟩ := h
  exact ⟨wrapIndex_lt _ (Nat.zero_lt_of_lt hfocus), hkind, hsweep⟩

theorem nextSweep_le (n k : Nat) : nextSweep n k ≤ 2 * n := by
  unfold nextSweep
  split <;> omega

theorem sweepFocus_lt {n : Nat} (k r : Nat) {focus : Nat} (h : focus < n) : sweepFocus n k focus r < n := by
  unfold sweepFocus
  split
  · exact h
  · exact wrapIndex_lt _ (by omega)

theorem controlSteps_of_paintFrame {d : HostDraw} {dir : Int} {s t : State} (h : paintFrame d dir s = .next t) :
    ControlSteps s t := by
  unfold paintFrame at h
  split at h
  · exact controlSteps_of_paint h
  · exact controlSteps_of_paint h
  · refine .head (.host _ fun ok => ?_) (controlSteps_of_paint h)
    obtain ⟨hfocus, hkind, -⟩ := ok
    exact ⟨sweepFocus_lt _ _ hfocus, hkind, nextSweep_le _ _⟩

theorem controlSteps_of_frame {d : HostDraw} {s t : State} (h : frame d s = .next t) : ControlSteps s t := by
  rw [frame, andThen_eq_next] at h
  obtain ⟨u, hu, ht⟩ := h
  exact .head .drainIncrement (.head (.host _ (frameHost_ok s))
    ((controlSteps_of_paint hu).trans (controlSteps_of_paintFrame ht)))

theorem controlSteps_of_adjustBy {v : Int} {s t : State} (h : adjustBy v s = .next t) : ControlSteps s t := by
  refine .head (.host _ fun ok => ?_) (controlSteps_of_paint h)
  obtain ⟨hfocus, -, hsweep⟩ := ok
  exact ⟨hfocus, wrapIndex_lt _ (by decide), hsweep⟩

theorem controlSteps_of_handlerPhase {d : HostDraw} {s t : State} (h : handlerPhase d s = .next t) :
    ControlSteps s t := by
  unfold handlerPhase at h
  split at h
  · unfold normalTick at h
    split at h
    · exact controlSteps_of_frame h
    · cases h
      exact .single (.host _ id)
  · exact .head .drainIncrement (controlSteps_of_adjustBy h)

theorem controlSteps_of_clickPhase {d : HostDraw} {s t : State} (h : clickPhase d s = .next t) : ControlSteps s t :=
  .head .drainClicks (controlSteps_of_toggleTimes h)

/-! ### The command -/

theorem controlSteps_of_inject {v : Int} {s t : State} (h : inject v s = .next t) : ControlSteps s t := by
  unfold inject at h
  split at h
  · cases h
    exact .single (.host _ id)
  · exact controlSteps_of_adjustBy h

theorem controlSteps_of_dispatchCommand {a : Bool} {cmd : Addr × List Byte} {s t : State}
    (h : dispatchCommand a cmd s = .next t) : ControlSteps s t := by
  unfold dispatchCommand at h
  split at h
  · split_ifs at h
    · exact controlSteps_of_inject h
    · cases h; exact .refl
    · cases h; exact .single (.emit _ (by simp))
  · split_ifs at h
    · exact controlSteps_of_toggleMode h
    · cases h; exact .refl
  · cases h; exact .refl

theorem mem_interruptsOf {e : Interrupt} {items : List RaceItem} :
    e ∈ interruptsOf items ↔ RaceItem.interrupt e ∈ items := by
  simp only [interruptsOf, List.mem_filterMap]
  constructor
  · rintro ⟨x, hx, he⟩
    cases x <;> cases he
    exact hx
  · exact fun h => ⟨_, h, rfl⟩

theorem subSteps_of_interrupts {irq : Interrupt → Prop} (l : List Interrupt) (s : State) (h : ∀ e ∈ l, irq e) :
    SubSteps irq s (l.foldl (fun t e => runInterrupt e t) s) := by
  induction l generalizing s with
  | nil => exact .refl
  | cons e l ih =>
    exact .head (.interrupt e (h e (by simp))) (ih _ fun x hx => h x (by simp [hx]))

/-- The state after a race: its entry is used up, and its interrupts have been. -/
theorem raced_fst (s : State) :
    (raced s).1 = (interruptsOf s.race).foldl (fun t e => runInterrupt e t) (s.withRaces s.races.tail) :=
  foldl_raceStep_fst s.race _ _

theorem subSteps_raced (s : State) : SubSteps (fun e => .interrupt e ∈ s.race) s (raced s).1 := by
  rw [raced_fst]
  exact .head (.races _) (subSteps_of_interrupts _ _ fun e he => mem_interruptsOf.1 he)

theorem subSteps_getCommand (s : State) : SubSteps (fun e => .interrupt e ∈ s.race) s (getCommand s) :=
  (subSteps_raced s).tail (.control (.emit _ (by simp)))

theorem foldl_runInterrupt_host (l : List Interrupt) (s : State) :
    (l.foldl (fun t e => runInterrupt e t) s).host = s.host := by
  induction l generalizing s with
  | nil => rfl
  | cons e l ih => rw [List.foldl_cons, ih, runInterrupt_host]

@[simp] theorem getCommand_host (s : State) : (getCommand s).host = s.host := by
  rw [getCommand, State.emit_host, raced_fst, foldl_runInterrupt_host, State.withRaces_host]

theorem eq_getCommand_of_exec {s t : State} (h : execGetCommand s = .next t) : t = getCommand s := by
  rcases execGetCommand_cases s with ⟨-, hnext⟩ | ⟨a, d, -, -, hrefused⟩
  · rw [hnext] at h; exact (Host.Outcome.next.inj h).symm
  · rw [hrefused] at h; cases h

theorem subSteps_of_commandPhase {d : HostDraw} {s t : State} (h : commandPhase d s = .next t) :
    SubSteps (fun e => .interrupt e ∈ s.race) s t := by
  rw [commandPhase, andThen_eq_next] at h
  obtain ⟨u, hu, ht⟩ := h
  obtain rfl := eq_getCommand_of_exec hu
  have hhost : ControlStep (getCommand s)
      ((getCommand s).withHost { s.host with lastCommand := some (commandRead s) }) := by
    refine .host _ fun ok => ?_
    simp only [State.HostOk, getCommand_host, State.withHost_host, State.withHost_cfg] at ok ⊢
    exact ok
  exact ((subSteps_getCommand s).tail (.control hhost)).trans (controlSteps_of_dispatchCommand ht).subSteps

/-! ### Operations -/

/-- Sub-steps in any order: `Pre` holds up to the one that reads the command, `Post` from there on. -/
theorem inOrder_leads {Pre Post : State → Prop} {a b c : State → Result}
    (hpa : ∀ u v, Pre u → a u = .next v → Pre v) (hpb : ∀ u v, Pre u → b u = .next v → Pre v)
    (hc : ∀ u v, Pre u → c u = .next v → Post v)
    (hqa : ∀ u v, Post u → a u = .next v → Post v) (hqb : ∀ u v, Post u → b u = .next v → Post v)
    {o : Fin 6} {s t : State} (hs : Pre s) (h : inOrder o a b c s = .next t) : Post t := by
  unfold inOrder at h
  split at h <;> simp only [andThen_eq_next] at h <;> obtain ⟨v, ⟨u, hu, hv⟩, ht⟩ := h
  · exact hc _ _ (hpb _ _ (hpa _ _ hs hu) hv) ht
  · exact hqb _ _ (hc _ _ (hpa _ _ hs hu) hv) ht
  · exact hc _ _ (hpa _ _ (hpb _ _ hs hu) hv) ht
  · exact hqa _ _ (hc _ _ (hpb _ _ hs hu) hv) ht
  · exact hqb _ _ (hqa _ _ (hc _ _ hs hu) hv) ht
  · exact hqa _ _ (hqb _ _ (hc _ _ hs hu) hv) ht

theorem subSteps_of_ctrlTick {s t : State} (h : execCtrlTick s = .next t) :
    SubSteps (fun e => .interrupt e ∈ s.race) s t := by
  have hsteps {f : State → Result} (hf : ∀ u v, f u = .next v → ControlSteps u v) (u v : State)
      (hu : SubSteps (fun e => .interrupt e ∈ s.race) s u) (huv : f u = .next v) :
      SubSteps (fun e => .interrupt e ∈ s.race) s v := hu.trans (hf u v huv).subSteps
  have hraces {f : State → Result} (hf : ∀ u v, f u = .next v → ControlSteps u v) (u v : State)
      (hu : u.races = s.races) (huv : f u = .next v) : v.races = s.races := (hf u v huv).races_eq.trans hu
  unfold execCtrlTick ctrlTickWith at h
  have hclick u v := controlSteps_of_clickPhase (d := drawAt s.draws) (s := u) (t := v)
  have hhandler u v := controlSteps_of_handlerPhase (d := drawAt s.draws) (s := u) (t := v)
  refine inOrder_leads (s := s.withDraws (s.draws + 1)) (Pre := fun u => u.races = s.races ∧ SubSteps (fun e => .interrupt e ∈ s.race) s u)
    (fun u v hu huv => ⟨hraces hclick u v hu.1 huv, hsteps hclick u v hu.2 huv⟩)
    (fun u v hu huv => ⟨hraces hhandler u v hu.1 huv, hsteps hhandler u v hu.2 huv⟩)
    (fun u v hu huv => hu.2.trans ?_)
    (hsteps hclick) (hsteps hhandler) ⟨rfl, .single (.control (.draws _))⟩ h
  have hrace : u.race = s.race := by rw [State.race, hu.1, State.race]
  have hcommand := subSteps_of_commandPhase huv
  rwa [hrace] at hcommand

/-- An operation of the host is a sequence of small steps, preempted at most by the interrupts of its race. -/
theorem subSteps_of_host {i : Instr} {s t : State} (hi : i.agent = .host) (h : exec i s = .next t) :
    SubSteps (fun e => .interrupt e ∈ s.race) s t := by
  cases i with
  | drainIncrement => cases h; exact .single (.control .drainIncrement)
  | drainClicks => cases h; exact .single (.control .drainClicks)
  | setLed pos v => exact .single (.control (controlStep_of_execSetLed h))
  | getCommand => obtain rfl := eq_getCommand_of_exec h; exact subSteps_getCommand s
  | ctrlTick => exact subSteps_of_ctrlTick h
  | _ => cases hi

/-- A register access writes the responder and shows nothing (R90). -/
theorem busFrame_of_busreg {i : Instr} {s t : State} (hi : i.format = .busreg) (h : exec i s = .next t) :
    BusFrame s t ∧ t.trace = s.trace := by
  cases i with
  | rdValue => cases h; exact ⟨rdValue_frame s, by simp [rdValue]⟩
  | rdClick => cases h; exact ⟨rdClick_frame s, by simp [rdClick]⟩
  | rdOther off => cases h; exact ⟨.refl s, rfl⟩
  | wrValue => cases h; exact ⟨wrValue_frame s, by simp [wrValue]⟩
  | wrClick => cases h; exact ⟨wrClick_frame s, by simp [wrClick]⟩
  | wrIllumType => cases h; exact ⟨wrIllumType_frame s, by simp [wrIllumType]⟩
  | wrIllumData => cases h; exact ⟨wrIllumData_frame s, by simp [wrIllumData]⟩
  | wrOther off => cases h; exact ⟨.refl s, rfl⟩
  | _ => cases hi

/-- An operation of the BUS agent writes the responder at most (R40). -/
theorem busFrame_of_bus {i : Instr} {s t : State} (hi : i.agent = .bus) (h : exec i s = .next t) : BusFrame s t := by
  cases i with
  | addrMatch a d =>
    obtain rfl := eq_runInterrupt_of_exec (e := .addrMatch a d) h
    exact addrMatch_frame a d s
  | byteReadyRd => cases h; exact byteReadyRd_frame s
  | byteReadyWr b => cases h; exact byteReadyWr_frame b s
  | stop => cases h; exact stop_frame s
  | busError => cases h; exact busErrorEvent_frame s
  | rotEdge | pressEdge | decTick | dispTick | drainIncrement | drainClicks | setLed | getCommand | ctrlTick => cases hi
  | _ => exact (busFrame_of_busreg rfl h).1

/-- The operations of the EDGE and BUS agents are the interrupts (R75). -/
theorem exists_interrupt {i : Instr} (hi : i.format = .edge ∨ i.format = .busev) : ∃ e : Interrupt, i = e.toInstr := by
  cases i with
  | rotEdge level => exact ⟨.rotEdge level, rfl⟩
  | pressEdge => exact ⟨.pressEdge, rfl⟩
  | addrMatch a d => exact ⟨.addrMatch a d, rfl⟩
  | byteReadyRd => exact ⟨.byteReadyRd, rfl⟩
  | byteReadyWr b => exact ⟨.byteReadyWr b, rfl⟩
  | stop => exact ⟨.stop, rfl⟩
  | busError => exact ⟨.busError, rfl⟩
  | _ => rcases hi with h | h <;> cases h

/-- Everything an operation can do: small steps, one of the two ticks, or a register access. -/
theorem exec_cases {i : Instr} {s t : State} (h : exec i s = .next t) :
    SubSteps (fun _ => True) s t ∨ (i = .decTick ∧ t = decTick s) ∨ (i = .dispTick ∧ t = dispTick s) ∨
    (i.format = .busreg ∧ BusFrame s t ∧ t.trace = s.trace) := by
  have hinterrupt (e : Interrupt) (hi : i = e.toInstr) : SubSteps (fun _ => True) s t := by
    subst hi
    rw [eq_runInterrupt_of_exec h]
    exact .single (.interrupt e trivial)
  cases hf : i.format with
  | edge => exact .inl ((exists_interrupt (.inl hf)).elim hinterrupt)
  | busev => exact .inl ((exists_interrupt (.inr hf)).elim hinterrupt)
  | busreg => exact .inr (.inr (.inr ⟨rfl, busFrame_of_busreg hf h⟩))
  | tick =>
    cases i with
    | decTick => cases h; exact .inr (.inl ⟨rfl, rfl⟩)
    | dispTick => cases h; exact .inr (.inr (.inl ⟨rfl, rfl⟩))
    | _ => cases hf
  | call | host =>
    have hagent : i.agent = .host := by cases i <;> simp_all [Instr.format, Instr.agent]
    exact .inl ((subSteps_of_host hagent h).mono fun _ _ => trivial)

/-! ### Parameters and trace (R8) -/

theorem dispTick_cfg (s : State) : (dispTick s).cfg = s.cfg := by
  rcases dispTick_cases s with ⟨-, h⟩ | ⟨-, h⟩
  · rw [h, State.withDisp_cfg]
  · rw [h, scanTransition_eq]

/-- Settles O47: each small step keeps the parameters and appends to the trace. -/
theorem parametersNeverChange : Obligations.ParametersNeverChange := by
  intro i s t h
  rcases exec_cases h with hsteps | ⟨-, rfl⟩ | ⟨-, rfl⟩ | ⟨-, hframe, htrace⟩
  · obtain ⟨shown, hshown, -⟩ := hsteps.shows
    exact ⟨hsteps.cfg_eq, shown, hshown⟩
  · exact ⟨rfl, [], (List.append_nil _).symm⟩
  · refine ⟨dispTick_cfg s, ?_⟩
    rcases dispTick_cases s with ⟨-, h⟩ | ⟨-, h⟩
    · exact ⟨[], by simp [h]⟩
    · exact ⟨_, by rw [h, scanTransition_eq]⟩
  · exact ⟨hframe.cfg, [], by simp [htrace]⟩

end Sys2Proof.Machine
end

section
/-! SUPPORT. Proofs for spec/41_display_multiplexer.md: the LED map, `SET_LED` (R141, R142), `DISP_TICK` (R143 to R145)
and what the pins can show (R32). -/

namespace Sys2Proof.Machine

/-! ### The LED map (R8) -/

section LedMap

variable {c : Config}

theorem srcOf_eq_getElem {pos : Nat} (h : pos < c.ledSrc.length) : srcOf c pos = c.ledSrc[pos] := by
  simp [srcOf, h]

theorem snkOf_eq_getElem {pos : Nat} (h : pos < c.ledSnk.length) : snkOf c pos = c.ledSnk[pos] := by
  simp [snkOf, h]

theorem srcOf_lt (hc : c.LedMapOk) {pos : Nat} (h : pos < c.nLeds) : srcOf c pos < c.nPins := by
  obtain ⟨hsrc, -, hbound, -, -, -⟩ := hc
  rw [srcOf_eq_getElem (hsrc ▸ h)]
  exact hbound _ (List.getElem_mem _)

theorem snkOf_lt (hc : c.LedMapOk) {pos : Nat} (h : pos < c.nLeds) : snkOf c pos < c.nPins := by
  obtain ⟨-, hsnk, -, hbound, -, -⟩ := hc
  rw [snkOf_eq_getElem (hsnk ▸ h)]
  exact hbound _ (List.getElem_mem _)

/-- The pin pair of an LED is the entry at its position. -/
theorem pinPair_eq_getElem (hc : c.LedMapOk) {pos : Nat} (h : pos < c.nLeds) :
    ∃ hz : pos < (c.ledSrc.zip c.ledSnk).length, (c.ledSrc.zip c.ledSnk)[pos] = (srcOf c pos, snkOf c pos) := by
  obtain ⟨hsrc, hsnk, -, -, -, -⟩ := hc
  refine ⟨by simp [hsrc, hsnk, h], ?_⟩
  rw [List.getElem_zip, srcOf_eq_getElem (hsrc ▸ h), snkOf_eq_getElem (hsnk ▸ h)]

theorem srcOf_ne_snkOf (hc : c.LedMapOk) {pos : Nat} (h : pos < c.nLeds) : srcOf c pos ≠ snkOf c pos := by
  obtain ⟨hz, hpair⟩ := pinPair_eq_getElem hc h
  obtain ⟨-, -, -, -, hne, -⟩ := hc
  have hmem := hne _ (List.getElem_mem hz)
  rwa [hpair] at hmem

/-- No two LEDs have the same pin pair. -/
theorem eq_of_pinPair_eq (hc : c.LedMapOk) {p q : Nat} (hp : p < c.nLeds) (hq : q < c.nLeds)
    (hsrc : srcOf c p = srcOf c q) (hsnk : snkOf c p = snkOf c q) : p = q := by
  obtain ⟨hzp, hpairp⟩ := pinPair_eq_getElem hc hp
  obtain ⟨hzq, hpairq⟩ := pinPair_eq_getElem hc hq
  obtain ⟨-, -, -, -, -, hnodup⟩ := hc
  exact (hnodup.getElem_inj_iff (hi := hzp) (hj := hzq)).1 (by rw [hpairp, hpairq, hsrc, hsnk])

/-- Every slot is current for a tick at least. -/
theorem dwellOf_pos (hc : c.DwellOk) (ph b : Nat) : 0 < dwellOf c ph b := by
  obtain ⟨-, hrows⟩ := hc
  unfold dwellOf
  rcases Nat.lt_or_ge ph c.dwell.length with hph | hph
  · rw [List.getD_eq_getElem _ _ hph]
    rcases Nat.lt_or_ge b c.dwell[ph].length with hb | hb
    · rw [List.getD_eq_getElem _ _ hb]
      exact (hrows _ (List.getElem_mem hph)).2 _ (List.getElem_mem hb)
    · rw [List.getD_eq_default _ _ hb]; exact Nat.one_pos
  · rw [List.getD_eq_default _ _ hph, List.getD_nil]; exact Nat.one_pos

end LedMap

/-! ### SET_LED (R141) -/

theorem topBits_toNat (n : Nat) (v : Byte) : (topBits n v).toNat = v.toNat / 2 ^ (8 - n) := by
  rw [topBits, BitVec.toNat_ushiftRight, Nat.shiftRight_eq_div_pow]

theorem topBits_getLsbD (n : Nat) (v : Byte) (b : Nat) : (topBits n v).getLsbD b = v.getLsbD (b + (8 - n)) := by
  rw [topBits, BitVec.getLsbD_ushiftRight, Nat.add_comm]

/-- The table bits after `SET_LED`: the LED's bit in every plane is written, every other bit stays. -/
theorem tableBit_setLed {c : Config} {d : Display} (hc : c.LedMapOk) (hd : d.Shaped c) {pos : Nat} (hpos : pos < c.nLeds)
    (v : Byte) (ph b k : Nat) :
    tableBit (d.setLed c pos v).dirbits ph b k =
      if ph = srcOf c pos ∧ k = snkOf c pos ∧ b < c.nPlanes then (topBits c.nPlanes v).getLsbD b
      else tableBit d.dirbits ph b k := by
  obtain ⟨-, -, hlen, hrows⟩ := hd
  have hsrc : srcOf c pos < d.dirbits.length := hlen ▸ srcOf_lt hc hpos
  have hrow : (d.dirbits.getD (srcOf c pos) []).length = c.nPlanes := by
    rw [List.getD_eq_getElem _ _ hsrc]
    exact (hrows _ (List.getElem_mem hsrc)).1
  rw [Display.setLed, tableBit_writePlanes]
  · simp only [hsrc, hrow, true_and]
  · intro _ hb
    rw [List.getD_eq_getElem _ _ hb]
    have hmem := List.getElem_mem hb
    simp only [List.getD_eq_getElem _ _ hsrc] at hmem ⊢
    rw [(hrows _ (List.getElem_mem hsrc)).2 _ hmem]
    exact snkOf_lt hc hpos

theorem getD_set {α : Type} (l : List α) (pos p : Nat) (v d : α) (h : pos < l.length) :
    (l.set pos v).getD p d = if p = pos then v else l.getD p d := by
  by_cases hp : p = pos
  · subst hp; simp [h]
  · simp [List.getElem?_set_ne (Ne.symm hp), hp]

theorem exec_setLed {s : State} {pos : Nat} (h : pos < s.cfg.nLeds) (v : Byte) :
    exec (.setLed pos v) s = .next (setLedAt pos v s) :=
  execSetLed_in_range v ⟨Int.natCast_nonneg pos, Int.ofNat_lt.2 h⟩

/-- Settles O14: the three tables at the position and elsewhere. -/
theorem setLedWritesOnlyItsTableBits : Obligations.SetLedWritesOnlyItsTableBits := by
  intro s pos v hc hd hpos
  obtain ⟨-, hmap, -, -⟩ := hc
  have ⟨hint, hplane, _, _⟩ := hd
  refine ⟨setLedAt pos v s, exec_setLed hpos v, rfl, fun p => ?_, fun p => ?_, fun ph b k => ?_⟩
  · exact getD_set s.disp.intensity pos p v 0 (hint ▸ hpos)
  · have hset := getD_set s.disp.bitplane pos p (topBits s.cfg.nPlanes v) 0 (hplane ▸ hpos)
    rw [← topBits_toNat, ← apply_ite BitVec.toNat, ← hset]; rfl
  · rw [← topBits_getLsbD]
    exact tableBit_setLed hmap hd hpos v ph b k

/-- Settles O15: the range check of R142. -/
theorem setLedOutOfRangeIsRefused : Obligations.SetLedOutOfRangeIsRefused := by
  intro s pos v h
  exact if_neg (by omega)

/-! ### DISP_TICK (R143 to R145) -/

/-- Below the dwell a tick only counts. -/
theorem dispTick_of_lt {s : State}
    (h : s.disp.dwellCounter + 1 < dwellOf s.cfg s.disp.scanPhase s.disp.scanCycle) :
    dispTick s = s.withDisp { s.disp with dwellCounter := s.disp.dwellCounter + 1 } :=
  if_neg (by omega)

/-- Settles O17: the counting branch of the tick. -/
theorem dispTickWithinTheDwellCounts : Obligations.DispTickWithinTheDwellCounts := by
  intro s h
  exact congrArg Host.Outcome.next (dispTick_of_lt h)

/-- Settles O16: neither the table write nor a counting tick touches `OUT`, `DIR` or the trace. -/
theorem setLedWaitsForTheNextActivation : Obligations.SetLedWaitsForTheNextActivation := by
  intro s t u pos v h
  obtain ⟨p, -, rfl⟩ := eq_setLedAt_of_exec h
  refine ⟨rfl, rfl, fun hdwell hu => ?_⟩
  have hcount := dispTick_of_lt (s := setLedAt p v s) hdwell
  obtain rfl : dispTick (setLedAt p v s) = u := Host.Outcome.next.inj hu
  rw [hcount]
  exact ⟨rfl, rfl⟩

/-- The slot after a slot is a slot (R144). -/
theorem nextSlot_lt {c : Config} (hc : c.SizesOk) {ph b : Nat} (hb : b < c.nPlanes) :
    (nextSlot c ph b).1 < c.nPins ∧ (nextSlot c ph b).2 < c.nPlanes := by
  obtain ⟨hpins, -, -, hplanes, -, -, -⟩ := hc
  unfold nextSlot
  split_ifs with h
  · exact ⟨h, hb⟩
  · exact ⟨by simp only; omega, Nat.mod_lt _ hplanes⟩

/-- What the pins show in an activated slot: its source `H`, the pins of its table entry `L`, the rest `Z` (R103). -/
theorem pinLevels_slot (c : Config) (t : List (List Bits)) (ph b : Nat) :
    pinLevels c.nPins (slotDir c t ph b) (onehot c.nPins ph) =
      (List.range c.nPins).map (fun k => if k = ph then .H else if tableBit t ph b k then .L else .Z) := by
  refine List.map_congr_left fun k hk => ?_
  have hk' : k < c.nPins := List.mem_range.1 hk
  rw [pinAt, slotDir_getD, onehot_getD]
  by_cases hph : k = ph
  · subst hph; simp [hk', pinLevel]
  · cases tableBit t ph b k <;> simp [hk', hph, pinLevel]

theorem slotDir_length (c : Config) (t : List (List Bits)) (ph b : Nat) : (slotDir c t ph b).length = c.nPins :=
  orBits_length ..

/-- The source pin of an activated slot is an output. -/
theorem slotDir_source {c : Config} (t : List (List Bits)) {ph : Nat} (b : Nat) (h : ph < c.nPins) :
    (slotDir c t ph b).getD ph false = true := by
  rw [slotDir_getD]; simp [h]

/-- Settles O18: the transition of R143 to the next slot of R144. -/
theorem dispTickTransitionClearsThenSets : Obligations.DispTickTransitionClearsThenSets := by
  intro s hc hphase hdwell
  obtain ⟨⟨hpins, -⟩, -⟩ := hc
  have hph : (nextSlot s.cfg s.disp.scanPhase s.disp.scanCycle).1 < s.cfg.nPins := by
    unfold nextSlot
    split_ifs with h
    · exact h
    · exact Nat.lt_of_lt_of_le Nat.two_pos hpins
  refine ⟨scanTransition s, (nextSlot s.cfg s.disp.scanPhase s.disp.scanCycle).1,
    (nextSlot s.cfg s.disp.scanPhase s.disp.scanCycle).2, _, ?_, ?_, rfl, ?_, fun k hk => ?_, ?_, ?_⟩
  · exact congrArg Host.Outcome.next (dispTick_of_dwell_reached hdwell)
  · unfold nextSlot
    split_ifs with h
    · exact ⟨rfl, rfl⟩
    · exact ⟨rfl, rfl⟩
  · rw [scanTransition_eq, pinLevels_slot]
  · rw [scanTransition_eq]
    simp only [onehot_getD, slotDir_getD, hk, decide_true, Bool.true_and, and_self]
  · rw [scanTransition_eq]
    exact pinLevels_slot ..
  · rw [scanTransition_eq]
    have hout := slotDir_source s.disp.dirbits (nextSlot s.cfg s.disp.scanPhase s.disp.scanCycle).2 hph
    rw [List.getD_eq_getElem _ _ (by rwa [slotDir_length])] at hout
    exact List.any_eq_true.2 ⟨true, hout ▸ List.getElem_mem _, rfl⟩

/-! ### At most one phase is driven (R32) -/

/-- The parameters, the scan position and the pin registers are the same. -/
structure ScanFrame (s t : State) : Prop where
  cfg : t.cfg = s.cfg
  scanPhase : t.disp.scanPhase = s.disp.scanPhase
  scanCycle : t.disp.scanCycle = s.disp.scanCycle
  dwellCounter : t.disp.dwellCounter = s.disp.dwellCounter
  out : t.disp.out = s.disp.out
  dir : t.disp.dir = s.disp.dir

theorem ScanFrame.of_eq {s t : State} (hc : t.cfg = s.cfg) (hd : t.disp = s.disp) : ScanFrame s t := by
  constructor <;> simp [hc, hd]

theorem ScanFrame.trans {s t u : State} (h : ScanFrame s t) (k : ScanFrame t u) : ScanFrame s u :=
  ⟨k.1.trans h.1, k.2.trans h.2, k.3.trans h.3, k.4.trans h.4, k.5.trans h.5, k.6.trans h.6⟩

theorem ControlStep.scanFrame {s t : State} (h : ControlStep s t) : ScanFrame s t := by
  cases h with
  | setLed pos v hpos => exact ⟨rfl, rfl, rfl, rfl, rfl, rfl⟩
  | _ => exact .of_eq rfl rfl

theorem SubSteps.scanFrame {irq : Interrupt → Prop} {s t : State} (h : SubSteps irq s t) : ScanFrame s t := by
  induction h with
  | refl => exact .of_eq rfl rfl
  | tail _ hstep ih =>
    refine ih.trans ?_
    cases hstep with
    | control hc => exact hc.scanFrame
    | interrupt e he => exact .of_eq (runInterrupt_cfg e _) (runInterrupt_disp e _)
    | races l => exact .of_eq rfl rfl

theorem ScanFrame.scanOk {s t : State} (h : ScanFrame s t) (hs : s.disp.ScanOk s.cfg) : t.disp.ScanOk t.cfg := by
  rw [Display.ScanOk, h.cfg, h.scanPhase, h.scanCycle, h.dwellCounter]
  exact hs

theorem ScanFrame.pinsOk {s t : State} (h : ScanFrame s t) (hs : s.disp.PinsOk s.cfg) : t.disp.PinsOk t.cfg := by
  rw [Display.PinsOk, h.cfg, h.scanPhase, h.out, h.dir]
  exact hs

/-- A tick goes from a slot to a slot, with its dwell not used up (R29). -/
theorem dispTick_scanOk {s : State} (hc : s.cfg.Wf) (h : s.disp.ScanOk s.cfg) :
    (dispTick s).disp.ScanOk (dispTick s).cfg := by
  obtain ⟨hsizes, -, hdwell, -⟩ := hc
  obtain ⟨hphase, hcycle, -⟩ := h
  rcases dispTick_cases s with ⟨hlt, htick⟩ | ⟨-, htick⟩
  · rw [htick]
    exact ⟨hphase, hcycle, hlt⟩
  · rw [htick, scanTransition_eq]
    obtain ⟨hph, hb⟩ := nextSlot_lt hsizes (ph := s.disp.scanPhase) hcycle
    exact ⟨hph, hb, dwellOf_pos hdwell _ _⟩

/-- A tick leaves the pins as they are or drives the new phase (R31). -/
theorem dispTick_pinsOk {s : State} (hc : s.cfg.Wf) (hscan : s.disp.ScanOk s.cfg) (h : s.disp.PinsOk s.cfg) :
    (dispTick s).disp.PinsOk (dispTick s).cfg := by
  obtain ⟨hsizes, -⟩ := hc
  obtain ⟨-, hcycle, -⟩ := hscan
  rcases dispTick_cases s with ⟨-, htick⟩ | ⟨-, htick⟩
  · rw [htick]
    exact h
  · rw [htick, scanTransition_eq]
    exact .inr ⟨rfl, slotDir_length .., slotDir_source _ _ (nextSlot_lt hsizes hcycle).1⟩

/-- Only the pin of the current phase can be `H` (R149). -/
theorem eq_scanPhase_of_high {c : Config} {d : Display} (h : d.PinsOk c) {k : Nat} (hk : pinAt d.dir d.out k = .H) :
    k = d.scanPhase := by
  obtain ⟨hdir, hout⟩ := pinAt_eq_H.1 hk
  rcases h with ⟨hz, -⟩ | ⟨hone, -, -⟩
  · rw [hz, zeroBits_getD] at hdir
    cases hdir
  · rw [hone, onehot_getD, Bool.and_eq_true, decide_eq_true_eq, decide_eq_true_eq] at hout
    exact hout.2

theorem drivenHigh_replicate_Z (n : Nat) : drivenHigh (List.replicate n .Z) = 0 := by
  simp [drivenHigh, List.count_replicate]

/-- Each pin state a tick shows has at most one pin `H`. -/
theorem dispTick_shown (s : State) :
    ∃ shown, (dispTick s).trace = s.trace ++ shown ∧ ∀ levels, Output.pins levels ∈ shown → drivenHigh levels ≤ 1 := by
  rcases dispTick_cases s with ⟨-, htick⟩ | ⟨-, htick⟩
  · exact ⟨[], by simp [htick], by simp⟩
  · refine ⟨_, by rw [htick, scanTransition_trace], fun levels hm => ?_⟩
    simp only [List.mem_cons, Output.pins.injEq, List.not_mem_nil, or_false] at hm
    rcases hm with rfl | rfl
    · rw [drivenHigh_replicate_Z]; exact Nat.zero_le 1
    · exact drivenHigh_scanTransition s

/-- What an operation leaves of the scan position and the pins, and what it shows of them. -/
theorem exec_keeps_scan {i : Instr} {s t : State} (hc : s.cfg.Wf) (hscan : s.disp.ScanOk s.cfg)
    (hpins : s.disp.PinsOk s.cfg) (h : exec i s = .next t) :
    t.disp.ScanOk t.cfg ∧ t.disp.PinsOk t.cfg ∧
      ∃ shown, t.trace = s.trace ++ shown ∧ ∀ levels, Output.pins levels ∈ shown → drivenHigh levels ≤ 1 := by
  have hquiet (hframe : ScanFrame s t) (hshows : Shows s t) : t.disp.ScanOk t.cfg ∧ t.disp.PinsOk t.cfg ∧
      ∃ shown, t.trace = s.trace ++ shown ∧ ∀ levels, Output.pins levels ∈ shown → drivenHigh levels ≤ 1 := by
    obtain ⟨shown, htrace, hnone⟩ := hshows
    exact ⟨hframe.scanOk hscan, hframe.pinsOk hpins, shown, htrace, fun levels hm => absurd hm (hnone levels)⟩
  rcases exec_cases h with hsteps | ⟨-, rfl⟩ | ⟨-, rfl⟩ | ⟨-, hframe, htrace⟩
  · exact hquiet hsteps.scanFrame hsteps.shows
  · exact hquiet (.of_eq rfl rfl) (.of_eq rfl)
  · exact ⟨dispTick_scanOk hc hscan, dispTick_pinsOk hc hscan hpins, dispTick_shown s⟩
  · exact hquiet (.of_eq hframe.cfg hframe.disp) (.of_eq htrace)

/-- Settles O20: the scan facts are kept, and with them only the pin of the current phase can be `H`. -/
theorem atMostOnePhaseIsDriven : Obligations.AtMostOnePhaseIsDriven := by
  intro i s t hc hscan hpins h
  obtain ⟨hscan', hpins', hshown⟩ := exec_keeps_scan hc hscan hpins h
  exact ⟨hscan', hpins', drivenHigh_le_one fun k hk => eq_scanPhase_of_high hpins' hk,
    fun k _ hk => eq_scanPhase_of_high hpins' hk, hshown⟩

end Sys2Proof.Machine
end

section
/-! SUPPORT. Proofs for spec/10_state.md and spec/70_reset_and_hazards.md: the reset state (R260) and the invariant of the
whole machine, part by part. -/

namespace Sys2Proof.Machine

/-! ### Reset (R260) -/

theorem tableBit_reset (c : Config) (ph b k : Nat) : tableBit (Display.reset c).dirbits ph b k = false := by
  simp only [tableBit, Display.reset, List.getD_eq_getElem?_getD, List.getElem?_replicate]
  by_cases hph : ph < c.nPins <;> by_cases hb : b < c.nPlanes <;> by_cases hk : k < c.nPins <;> simp [hph, hb, hk]

/-- Settles O49: field by field. -/
theorem resetLeavesEverythingZero : Obligations.ResetLeavesEverythingZero := by
  intro c
  refine ⟨rfl, rfl, rfl, rfl, rfl, rfl, tableBit_reset c, rfl, rfl, rfl, rfl, rfl, ?_, ?_, rfl, rfl, rfl, ?_, rfl, rfl,
    ?_, rfl, rfl, rfl, rfl⟩
  · exact pinLevels_zeroBits _ _
  · exact List.any_eq_false.2 fun x hx => by simp [List.eq_of_mem_replicate hx]
  · exact Vector.toList_replicate
  · exact Vector.toList_replicate

theorem topBits_zero (n : Nat) : topBits n 0 = 0 := BitVec.zero_ushiftRight

theorem reset_displayOk {c : Config} (hc : c.Wf) : (State.resetWith c).DisplayOk := by
  obtain ⟨⟨hpins, -, -, hplanes, -⟩, -, hdwell, -⟩ := hc
  refine ⟨⟨List.length_replicate, List.length_replicate, List.length_replicate, fun row hrow => ?_⟩, ?_,
    fun pos hpos b _ => ?_, fun ph _ b _ k _ hbit => ?_, ⟨?_, hplanes, dwellOf_pos hdwell 0 0⟩, .inl ⟨rfl, rfl⟩⟩
  · obtain rfl := List.eq_of_mem_replicate hrow
    exact ⟨List.length_replicate, fun bits hbits => by rw [List.eq_of_mem_replicate hbits, List.length_replicate]; rfl⟩
  · change List.replicate c.nLeds 0 = (List.replicate c.nLeds 0).map (topBits c.nPlanes)
    rw [List.map_replicate, topBits_zero]
  · have hplane : (List.replicate c.nLeds (0 : Byte)).getD pos 0 = 0 := by
      exact List.getD_replicate (h := hpos) ..
    exact (tableBit_reset c _ _ _).trans (by rw [State.resetWith, Display.reset, hplane]; exact BitVec.getLsbD_zero.symm)
  · exact absurd hbit (by simp [State.resetWith, tableBit_reset])
  · exact Nat.lt_of_lt_of_le Nat.two_pos hpins

theorem reset_inv {c : Config} (hc : c.Wf) : (State.resetWith c).Inv :=
  ⟨hc, ⟨Nat.two_pow_pos _, Nat.zero_le _⟩, reset_displayOk hc, ⟨Nat.le_refl 0, Nat.zero_le _⟩,
    hc.1.2.1, Nat.zero_lt_succ _, Nat.zero_le _⟩

/-- Settles O50: at reset the direction is `WRITE`, so the reply size is not in question. -/
theorem resetMeetsTheInvariant : Obligations.ResetMeetsTheInvariant :=
  ⟨fun _ hc => ⟨reset_inv hc, fun h => by cases h⟩, reset_inv (by decide)⟩

/-! ### The decoder (R22, R23) -/

theorem acceptEdge_decoderOk {s : State} (h : s.DecoderOk) {d : Decoder} (hd : d.clicks < 2 ^ s.cfg.clickWidth) :
    (acceptEdge s d).DecoderOk := by
  unfold acceptEdge
  split
  · exact ⟨hd, Nat.le_refl _⟩
  · exact h

theorem runInterrupt_decoderOk (e : Interrupt) {s : State} (h : s.DecoderOk) : (runInterrupt e s).DecoderOk := by
  have hbus (hf : BusFrame s (runInterrupt e s)) : (runInterrupt e s).DecoderOk := by
    rw [State.DecoderOk, hf.dec, hf.cfg]
    exact h
  cases e with
  | rotEdge level => exact acceptEdge_decoderOk h h.1
  | pressEdge => exact acceptEdge_decoderOk h (Nat.mod_lt _ (Nat.two_pow_pos _))
  | addrMatch a d => exact hbus (addrMatch_frame a d s)
  | byteReadyRd => exact hbus (byteReadyRd_frame s)
  | byteReadyWr b => exact hbus (byteReadyWr_frame b s)
  | stop => exact hbus (stop_frame s)
  | busError => exact hbus (busErrorEvent_frame s)

/-! ### The scratch (R35) -/

theorem populateReply_scratchOk {s : State} (h : s.scr.offset = 0 ∧ s.scr.size = 0) :
    (populateReply s).ScratchOk := by
  obtain ⟨hoff, hsize⟩ := h
  rw [populateReply_eq, State.ScratchOk]
  split_ifs <;> simp [rdValue, rdClick, hoff, hsize, Config.bufCap]

theorem byteReadyRd_scratchOk {s : State} (h : s.ScratchOk) : (byteReadyRd s).ScratchOk := by
  obtain ⟨hoff, hsize⟩ := h
  unfold byteReadyRd
  split_ifs with herr hlt
  · exact ⟨hoff, hsize⟩
  · exact ⟨hlt, hsize⟩
  · exact ⟨hoff, hsize⟩

theorem byteReadyWr_scratchOk (b : Byte) {s : State} (h : s.ScratchOk) : (byteReadyWr b s).ScratchOk := by
  obtain ⟨hoff, hsize⟩ := h
  unfold byteReadyWr
  split_ifs with herr hlt
  · exact ⟨hoff, hsize⟩
  · rw [State.ScratchOk, State.emit_scr, commitIfComplete_scr]
    exact ⟨Nat.le_succ_of_le hoff, hlt⟩
  · exact ⟨hoff, hsize⟩

theorem stop_scr (s : State) : (stop s).scr = s.scr := by
  unfold stop
  split <;> simp [wrIllumData]

theorem runInterrupt_scratchOk (e : Interrupt) {s : State} (h : s.ScratchOk) : (runInterrupt e s).ScratchOk := by
  have hedge (d : Decoder) : (acceptEdge s d).ScratchOk := by
    rw [acceptEdge_frame]
    exact h
  cases e with
  | rotEdge level => exact hedge _
  | pressEdge => exact hedge _
  | addrMatch a d =>
    cases d
    · exact populateReply_scratchOk ⟨rfl, rfl⟩
    · exact ⟨Nat.le_refl 0, Nat.zero_le _⟩
  | byteReadyRd => exact byteReadyRd_scratchOk h
  | byteReadyWr b => exact byteReadyWr_scratchOk b h
  | stop =>
    change (stop s).ScratchOk
    rw [State.ScratchOk, stop_scr]
    exact h
  | busError => exact h

/-! ### The display tables (R26 to R28) -/

section SetLed

variable {c : Config} {d : Display} {pos : Nat} (hc : c.LedMapOk) (hd : d.Shaped c) (hpos : pos < c.nLeds) (v : Byte)

include hd in
theorem setLed_shaped : (d.setLed c pos v).Shaped c := by
  obtain ⟨hint, hplane, hlen, hrows⟩ := hd
  exact ⟨by simp [Display.setLed, hint], by simp [Display.setLed, hplane],
    (writePlanes_length ..).trans hlen, writePlanes_shaped hrows _ _ _⟩

theorem setLed_planesFollow (h : d.PlanesFollow c) : (d.setLed c pos v).PlanesFollow c := by
  simp only [Display.PlanesFollow, Display.setLed] at h ⊢
  rw [h, List.map_set]

include hc hd hpos in
/-- The written LED follows its new level; another LED has another pin pair, so its bits stay. -/
theorem setLed_tablesFollow (h : d.TablesFollow c) : (d.setLed c pos v).TablesFollow c := by
  intro p hp b hb
  have hplane : (d.setLed c pos v).bitplane.getD p 0 = if p = pos then topBits c.nPlanes v else d.bitplane.getD p 0 :=
    getD_set _ _ _ _ _ (hd.2.1 ▸ hpos)
  rw [tableBit_setLed hc hd hpos, hplane]
  by_cases hpp : p = pos
  · subst hpp; simp [hb]
  · have hother : ¬ (srcOf c p = srcOf c pos ∧ snkOf c p = snkOf c pos ∧ b < c.nPlanes) :=
      fun ⟨hsrc, hsnk, _⟩ => hpp (eq_of_pinPair_eq hc hp hpos hsrc hsnk)
    rw [if_neg hother, if_neg hpp, h p hp b hb]

include hc hd hpos in
/-- A bit that is 1 is the written LED's, or it was 1 before. -/
theorem setLed_tablesElsewhereZero (h : d.TablesElsewhereZero c) : (d.setLed c pos v).TablesElsewhereZero c := by
  intro ph hph b hb k hk hbit
  rw [tableBit_setLed hc hd hpos] at hbit
  split_ifs at hbit with hled
  · exact ⟨pos, hpos, hled.1.symm, hled.2.1.symm⟩
  · exact h ph hph b hb k hk hbit

end SetLed

theorem setLedAt_displayOk {s : State} (hc : s.cfg.Wf) (h : s.DisplayOk) {pos : Nat} (hpos : pos < s.cfg.nLeds)
    (v : Byte) : (setLedAt pos v s).DisplayOk := by
  obtain ⟨-, hmap, -, -⟩ := hc
  obtain ⟨hshaped, hplanes, htables, hzero, hscan, hpins⟩ := h
  exact ⟨setLed_shaped hshaped v, setLed_planesFollow v hplanes, setLed_tablesFollow hmap hshaped hpos v htables,
    setLed_tablesElsewhereZero hmap hshaped hpos v hzero, hscan, hpins⟩

theorem dispTick_tables (s : State) :
    (dispTick s).disp.intensity = s.disp.intensity ∧ (dispTick s).disp.bitplane = s.disp.bitplane ∧
    (dispTick s).disp.dirbits = s.disp.dirbits := by
  rcases dispTick_cases s with ⟨-, h⟩ | ⟨-, h⟩
  · rw [h]; exact ⟨rfl, rfl, rfl⟩
  · rw [h, scanTransition_eq]; exact ⟨rfl, rfl, rfl⟩

theorem dispTick_displayOk {s : State} (hc : s.cfg.Wf) (h : s.DisplayOk) : (dispTick s).DisplayOk := by
  obtain ⟨hshaped, hplanes, htables, hzero, hscan, hpins⟩ := h
  obtain ⟨hint, hplane, hdir⟩ := dispTick_tables s
  refine ⟨?_, ?_, ?_, ?_, dispTick_scanOk hc hscan, dispTick_pinsOk hc hscan hpins⟩
  · rw [Display.Shaped, hint, hplane, hdir, dispTick_cfg]; exact hshaped
  · rw [Display.PlanesFollow, hint, hplane, dispTick_cfg]; exact hplanes
  · rw [Display.TablesFollow, hplane, hdir, dispTick_cfg]; exact htables
  · rw [Display.TablesElsewhereZero, hdir, dispTick_cfg]; exact hzero

/-! ### The whole machine -/

/-- A state with the same groups meets the same invariant. -/
theorem State.Inv.congr {s t : State} (h : s.Inv) (hcfg : t.cfg = s.cfg) (hdec : t.DecoderOk) (hdisp : t.disp = s.disp)
    (hscr : t.ScratchOk) (hhost : t.host = s.host) : t.Inv := by
  obtain ⟨hc, -, hd, -, hh⟩ := h
  refine ⟨hcfg ▸ hc, hdec, ?_, hscr, ?_⟩
  · rw [State.DisplayOk, hcfg, hdisp]; exact hd
  · rw [State.HostOk, hcfg, hhost]; exact hh

theorem ControlStep.inv {s t : State} (h : ControlStep s t) (hs : s.Inv) : t.Inv := by
  have ⟨hc, hdec, hdisp, hscr, hhost⟩ := hs
  cases h with
  | drainIncrement => exact hs.congr rfl hdec rfl hscr rfl
  | drainClicks => exact hs.congr rfl ⟨Nat.two_pow_pos _, hdec.2⟩ rfl hscr rfl
  | setLed pos v hpos => exact ⟨hc, hdec, setLedAt_displayOk hc hdisp hpos v, hscr, hhost⟩
  | host h ok => exact ⟨hc, hdec, hdisp, hscr, ok hhost⟩
  | draws n => exact hs.congr rfl hdec rfl hscr rfl
  | emit o ho => exact hs.congr rfl hdec rfl hscr rfl

theorem ControlSteps.inv {s t : State} (h : ControlSteps s t) (hs : s.Inv) : t.Inv := by
  induction h with
  | refl => exact hs
  | tail _ hstep ih => exact hstep.inv ih

theorem SubSteps.inv {irq : Interrupt → Prop} {s t : State} (h : SubSteps irq s t) (hs : s.Inv) : t.Inv := by
  induction h with
  | refl => exact hs
  | @tail u v _ hstep ih =>
    have ⟨_, hdec, _, hscr, _⟩ := ih
    cases hstep with
    | control hcontrol => exact hcontrol.inv ih
    | interrupt e he =>
      exact ih.congr (runInterrupt_cfg e u) (runInterrupt_decoderOk e hdec) (runInterrupt_disp e u)
        (runInterrupt_scratchOk e hscr) (runInterrupt_host e u)
    | races l => exact ih.congr rfl hdec rfl hscr rfl

theorem decTick_inv {s : State} (hs : s.Inv) : (decTick s).Inv := by
  have ⟨_, ⟨hclicks, hlock⟩, _, hscr, _⟩ := hs
  exact hs.congr rfl ⟨hclicks, Nat.le_trans (Nat.sub_le ..) hlock⟩ rfl hscr rfl

/-- A tick of the display touches neither decoder nor scratch nor host. -/
theorem dispTick_others (s : State) :
    (dispTick s).dec = s.dec ∧ (dispTick s).scr = s.scr ∧ (dispTick s).host = s.host := by
  rcases dispTick_cases s with ⟨-, h⟩ | ⟨-, h⟩
  · rw [h]; exact ⟨rfl, rfl, rfl⟩
  · rw [h, scanTransition_eq]; exact ⟨rfl, rfl, rfl⟩

theorem dispTick_inv {s : State} (hs : s.Inv) : (dispTick s).Inv := by
  obtain ⟨hc, hdec, hdisp, hscr, hhost⟩ := hs
  obtain ⟨hd, hr, hh⟩ := dispTick_others s
  have hcfg := dispTick_cfg s
  refine ⟨hcfg ▸ hc, ?_, dispTick_displayOk hc hdisp, ?_, ?_⟩
  · rw [State.DecoderOk, hd, hcfg]; exact hdec
  · rw [State.ScratchOk, hr]; exact hscr
  · rw [State.HostOk, hh, hcfg]; exact hhost

/-- Every operation of an agent keeps the invariant. -/
theorem exec_inv {i : Instr} {s t : State} (hs : s.Inv) (hi : i.isOperation = true) (h : exec i s = .next t) : t.Inv := by
  rcases exec_cases h with hsteps | ⟨-, rfl⟩ | ⟨-, rfl⟩ | ⟨hreg, -⟩
  · exact hsteps.inv hs
  · exact decTick_inv hs
  · exact dispTick_inv hs
  · simp [Instr.isOperation, hreg] at hi

/-- Settles O51: a step is one operation, run on a state that differs in the inbox only. -/
theorem stepKeepsTheInvariant : Obligations.StepKeepsTheInvariant := by
  intro s t hs hops h
  rcases hinbox : s.inbox with _ | ⟨f, rest⟩
  · rw [step_nil hinbox] at h
    exact Host.Outcome.next.inj h ▸ hs
  · rw [step_cons hinbox] at h
    rcases hdecode : decode f with _ | i
    · rw [hdecode] at h; cases h
    · rw [hdecode] at h
      exact exec_inv (s := s.withInbox rest) hs (hops f (by simp [hinbox]) i hdecode) h

end Sys2Proof.Machine
end

section
/-! SUPPORT. Proofs for spec/40_rotary_decoder.md: edges, drains, and the lockout over runs (R122 to R130). -/

namespace Sys2Proof.Machine

/-! ### Edges and drains (R122, R123, R125, R126) -/

theorem turnWord_eq_ofInt (t : Turn) : turnWord t = BitVec.ofInt 32 (turnInt t) := by
  cases t <;> rfl

/-- Adding an integer to a word moves its two's complement value by it, modulo 2^32. -/
theorem toInt_add_ofInt (w : Word) (d : Int) : (w + BitVec.ofInt 32 d).toInt = (w.toInt + d).bmod (2 ^ 32) := by
  rw [BitVec.toInt_add, BitVec.toInt_ofInt, Int.add_bmod_bmod]

/-- Settles O6: the accepting branch of the edge. -/
theorem rotEdgeWhileIdleAddsItsDirection : Obligations.RotEdgeWhileIdleAddsItsDirection := by
  intro s level hidle
  refine ⟨s.dec.increment + turnWord (dirOfLevel s.cfg level), congrArg Host.Outcome.next (acceptEdge_idle hidle _), ?_⟩
  rw [turnWord_eq_ofInt, toInt_add_ofInt]

/-- Settles O7: the accepting branch of the edge. -/
theorem pressEdgeWhileIdleCountsOne : Obligations.PressEdgeWhileIdleCountsOne := fun _ hidle =>
  congrArg Host.Outcome.next (acceptEdge_idle hidle _)

/-- Settles O8: one lockout guards both edges. -/
theorem edgesWhileLockedAreIgnored : Obligations.EdgesWhileLockedAreIgnored := fun _ hlocked =>
  ⟨fun _ => congrArg Host.Outcome.next (acceptEdge_locked hlocked _),
    congrArg Host.Outcome.next (acceptEdge_locked hlocked _)⟩

/-- Settles O10: a drain reads and clears, so the next one reads 0. -/
theorem drainsTakeAndClear : Obligations.DrainsTakeAndClear := fun s =>
  ⟨⟨drainIncrement s, rfl, rfl, rfl⟩, ⟨drainClicks s, rfl, rfl, rfl⟩⟩

/-- An edge is accepted, with some new counts, or ignored. -/
theorem exec_edge {i : Instr} (hi : i.format = .edge) (s : State) : ∃ d, exec i s = .next (acceptEdge s d) := by
  cases i with
  | rotEdge level => exact ⟨_, rfl⟩
  | pressEdge => exact ⟨_, rfl⟩
  | _ => cases hi

theorem exec_edge_locked {i : Instr} (hi : i.format = .edge) {s : State} (h : 0 < s.dec.lockout) :
    exec i s = .next s := by
  obtain ⟨d, hd⟩ := exec_edge hi s
  rw [hd, acceptEdge_locked h]

/-! ### The lockout while it runs (R129, R130) -/

theorem runInterrupt_lockout {e : Interrupt} {s : State} (h : 0 < s.dec.lockout) :
    (runInterrupt e s).dec.lockout = s.dec.lockout := by
  have hbus (hf : BusFrame s (runInterrupt e s)) : (runInterrupt e s).dec.lockout = s.dec.lockout := by rw [hf.dec]
  cases e with
  | rotEdge level => exact congrArg (·.dec.lockout) (acceptEdge_locked h _)
  | pressEdge => exact congrArg (·.dec.lockout) (acceptEdge_locked h _)
  | addrMatch a d => exact hbus (addrMatch_frame a d s)
  | byteReadyRd => exact hbus (byteReadyRd_frame s)
  | byteReadyWr b => exact hbus (byteReadyWr_frame b s)
  | stop => exact hbus (stop_frame s)
  | busError => exact hbus (busErrorEvent_frame s)

theorem ControlStep.lockout_eq {s t : State} (h : ControlStep s t) : t.dec.lockout = s.dec.lockout := by
  cases h <;> rfl

theorem SubSteps.lockout_eq {irq : Interrupt → Prop} {s t : State} (h : SubSteps irq s t) (hs : 0 < s.dec.lockout) :
    t.dec.lockout = s.dec.lockout := by
  induction h with
  | refl => rfl
  | tail _ hstep ih =>
    rw [← ih]
    cases hstep with
    | control hc => exact hc.lockout_eq
    | interrupt e he => exact runInterrupt_lockout (ih ▸ hs)
    | races l => rfl

/-- While the decoder is LOCKED only `DEC_TICK` moves the lockout. -/
theorem exec_lockout {i : Instr} {s t : State} (h : exec i s = .next t) (hs : 0 < s.dec.lockout) (hi : i ≠ .decTick) :
    t.dec.lockout = s.dec.lockout := by
  rcases exec_cases h with hsteps | ⟨rfl, -⟩ | ⟨-, rfl⟩ | ⟨-, hframe, -⟩
  · exact hsteps.lockout_eq hs
  · exact absurd rfl hi
  · rw [(dispTick_others s).1]
  · rw [hframe.dec]

/-- A lockout that the `DEC_TICK`s of a run do not use up goes down by as many. -/
theorem runOps_lockout {ops : List Instr} {s t : State} (h : runOps ops s = .next t)
    (hs : ops.count .decTick < s.dec.lockout) : t.dec.lockout = s.dec.lockout - ops.count .decTick := by
  induction ops generalizing s with
  | nil => cases h; rfl
  | cons i ops ih =>
    rw [runOps_cons, andThen_eq_next] at h
    obtain ⟨u, hu, ht⟩ := h
    by_cases hi : i = .decTick
    · subst hi
      cases hu
      rw [List.count_cons_self] at hs ⊢
      have hlock := ih ht (by rw [decTick_lockout]; omega)
      rw [decTick_lockout] at hlock
      omega
    · rw [List.count_cons_of_ne hi] at hs ⊢
      have hlock := exec_lockout hu (by omega) hi
      rw [ih ht (hlock ▸ hs), hlock]

/-- After an edge the decoder is LOCKED, if the lockout has a length. -/
theorem lockout_pos_after_edge {i : Instr} (hi : i.format = .edge) {s t : State} (h : exec i s = .next t)
    (hc : 0 < s.cfg.lockoutTicks) : 0 < t.dec.lockout := by
  obtain ⟨d, hd⟩ := exec_edge hi s
  obtain rfl := Host.Outcome.next.inj (hd.symm.trans h)
  rcases Nat.eq_zero_or_pos s.dec.lockout with hz | hp
  · rw [acceptEdge_idle hz]; exact hc
  · rw [acceptEdge_locked hp]; exact hp

/-- Settles O12: the lockout of the accepted edge is counted down by the run. -/
theorem debounceWindowIsExact : Obligations.DebounceWindowIsExact := by
  intro s u t e ops hidle he hu ht
  obtain ⟨d, hd⟩ := exec_edge he s
  obtain rfl := Host.Outcome.next.inj (hd.symm.trans hu)
  have hstart : (acceptEdge s d).dec.lockout = s.cfg.lockoutTicks := by
    rw [acceptEdge_idle (of_decide_eq_true hidle)]; rfl
  refine ⟨fun hcount e' he' => exec_edge_locked he' ?_, fun hcount w hw => ?_⟩
  · rw [runOps_lockout ht (by omega)]; omega
  · cases hw
    refine decide_eq_true ?_
    rw [decTick_lockout, runOps_lockout ht (by omega)]
    omega

/-! ### At most one edge between two ticks (R130) -/

/-- The counts have moved by a net turn and a number of clicks, modulo their widths. -/
structure Moved (turns : Int) (presses : Nat) (s t : State) : Prop where
  cfg : t.cfg = s.cfg
  increment : t.dec.increment = s.dec.increment + BitVec.ofInt 32 turns
  clicks : t.dec.clicks = (s.dec.clicks + presses) % 2 ^ s.cfg.clickWidth
  below : t.dec.clicks < 2 ^ s.cfg.clickWidth

theorem Moved.trans {d e : Int} {m n : Nat} {s t u : State} (h : Moved d m s t) (k : Moved e n t u) :
    Moved (d + e) (m + n) s u where
  cfg := k.cfg.trans h.cfg
  increment := by rw [k.increment, h.increment, BitVec.ofInt_add, BitVec.add_assoc]
  clicks := by rw [k.clicks, h.clicks, h.cfg, Nat.mod_add_mod, Nat.add_assoc]
  below := h.cfg ▸ k.below

/-- What is left to accept before the next `DEC_TICK`: one edge while IDLE. -/
def edgeAllowance (s : State) : Nat := if s.dec.lockout = 0 then 1 else 0

/-- The counts move by at most one for each `DEC_TICK` and the edge that the start allows. -/
def MovesWithin (ticks : Nat) (s t : State) : Prop :=
  ∃ (turns : Int) (presses : Nat), Moved turns presses s t ∧
    turns.natAbs + presses + edgeAllowance t ≤ ticks + edgeAllowance s

theorem MovesWithin.trans {m n : Nat} {s t u : State} (h : MovesWithin m s t) (k : MovesWithin n t u) :
    MovesWithin (m + n) s u := by
  obtain ⟨d, p, hmoved, hbound⟩ := h
  obtain ⟨e, q, kmoved, kbound⟩ := k
  refine ⟨d + e, p + q, hmoved.trans kmoved, ?_⟩
  have habs := Int.natAbs_add_le d e
  omega

/-- Without a change of the counts the allowance of a tick covers the lockout's end. -/
theorem MovesWithin.of_counts {n : Nat} {s t : State} (hs : s.dec.clicks < 2 ^ s.cfg.clickWidth) (hcfg : t.cfg = s.cfg)
    (hinc : t.dec.increment = s.dec.increment) (hclicks : t.dec.clicks = s.dec.clicks)
    (hallow : edgeAllowance t ≤ n + edgeAllowance s) : MovesWithin n s t := by
  refine ⟨0, 0, ⟨hcfg, by simp [hinc], ?_, hclicks ▸ hs⟩, by simpa using hallow⟩
  rw [hclicks, Nat.add_zero, Nat.mod_eq_of_lt hs]

theorem MovesWithin.of_dec_eq {s t : State} (hs : s.dec.clicks < 2 ^ s.cfg.clickWidth) (hcfg : t.cfg = s.cfg)
    (hdec : t.dec = s.dec) : MovesWithin 0 s t :=
  .of_counts hs hcfg (by rw [hdec]) (by rw [hdec]) (by simp [edgeAllowance, hdec])

/-- An edge uses up the allowance it needs. -/
theorem acceptEdge_movesWithin {s : State} (hs : s.dec.clicks < 2 ^ s.cfg.clickWidth) (hc : 0 < s.cfg.lockoutTicks)
    {d : Decoder} {turns : Int} {presses : Nat} (hinc : d.increment = s.dec.increment + BitVec.ofInt 32 turns)
    (hclicks : d.clicks = (s.dec.clicks + presses) % 2 ^ s.cfg.clickWidth) (hone : turns.natAbs + presses ≤ 1) :
    MovesWithin 0 s (acceptEdge s d) := by
  rcases Nat.eq_zero_or_pos s.dec.lockout with hidle | hlocked
  · rw [acceptEdge_idle hidle]
    refine ⟨turns, presses, ⟨rfl, hinc, hclicks, hclicks ▸ Nat.mod_lt _ (Nat.two_pow_pos _)⟩, ?_⟩
    simp only [edgeAllowance, State.withDec_dec, hidle, hc.ne', if_true, if_false]
    omega
  · rw [acceptEdge_locked hlocked]
    exact .of_dec_eq hs rfl rfl

theorem runInterrupt_movesWithin {e : Interrupt} {s : State} (hs : s.dec.clicks < 2 ^ s.cfg.clickWidth)
    (hc : 0 < s.cfg.lockoutTicks) : MovesWithin 0 s (runInterrupt e s) := by
  have hbus (hf : BusFrame s (runInterrupt e s)) : MovesWithin 0 s (runInterrupt e s) := .of_dec_eq hs hf.cfg hf.dec
  cases e with
  | rotEdge level =>
    refine acceptEdge_movesWithin hs hc (turns := turnInt (dirOfLevel s.cfg level)) (presses := 0) ?_ ?_ ?_
    · rw [turnWord_eq_ofInt]
    · exact (Nat.mod_eq_of_lt hs).symm
    · cases dirOfLevel s.cfg level <;> decide
  | pressEdge => exact acceptEdge_movesWithin hs hc (turns := 0) (presses := 1) (by simp) rfl (by decide)
  | addrMatch a d => exact hbus (addrMatch_frame a d s)
  | byteReadyRd => exact hbus (byteReadyRd_frame s)
  | byteReadyWr b => exact hbus (byteReadyWr_frame b s)
  | stop => exact hbus (stop_frame s)
  | busError => exact hbus (busErrorEvent_frame s)

theorem foldl_runInterrupt_movesWithin (l : List Interrupt) {s : State} (hs : s.dec.clicks < 2 ^ s.cfg.clickWidth)
    (hc : 0 < s.cfg.lockoutTicks) : MovesWithin 0 s (l.foldl (fun t e => runInterrupt e t) s) := by
  induction l generalizing s with
  | nil => exact .of_dec_eq hs rfl rfl
  | cons e l ih =>
    have hfirst := runInterrupt_movesWithin (e := e) hs hc
    have hcfg := runInterrupt_cfg e s
    have hbelow : (runInterrupt e s).dec.clicks < 2 ^ (runInterrupt e s).cfg.clickWidth := by
      obtain ⟨_, _, hmoved, -⟩ := hfirst
      exact hcfg ▸ hmoved.below
    exact hfirst.trans (ih hbelow (hcfg ▸ hc))

theorem getCommand_movesWithin {s : State} (hs : s.dec.clicks < 2 ^ s.cfg.clickWidth) (hc : 0 < s.cfg.lockoutTicks) :
    MovesWithin 0 s (getCommand s) := by
  have h := foldl_runInterrupt_movesWithin (interruptsOf s.race) (s := s.withRaces s.races.tail) hs hc
  rw [← raced_fst] at h
  obtain ⟨turns, presses, ⟨hcfg, hinc, hclicks, hbelow⟩, hbound⟩ := h
  exact ⟨turns, presses, ⟨hcfg, hinc, hclicks, hbelow⟩, hbound⟩

/-- An operation that is no drain moves the counts within the allowance, and only `DEC_TICK` adds to it. -/
theorem exec_movesWithin {i : Instr} {s t : State} (hs : s.dec.clicks < 2 ^ s.cfg.clickWidth)
    (hc : 0 < s.cfg.lockoutTicks) (hi : i ≠ .drainIncrement ∧ i ≠ .drainClicks ∧ i ≠ .ctrlTick)
    (h : exec i s = .next t) : MovesWithin (if i = .decTick then 1 else 0) s t := by
  have hinterrupt (hf : i.format = .edge ∨ i.format = .busev) : MovesWithin 0 s t := by
    obtain ⟨e, rfl⟩ := exists_interrupt hf
    rw [eq_runInterrupt_of_exec h]
    exact runInterrupt_movesWithin hs hc
  have hbusreg (hf : i.format = .busreg) : MovesWithin 0 s t := by
    obtain ⟨hframe, -⟩ := busFrame_of_busreg hf h
    exact .of_dec_eq hs hframe.cfg hframe.dec
  cases i with
  | rotEdge level => exact hinterrupt (.inl rfl)
  | pressEdge => exact hinterrupt (.inl rfl)
  | decTick =>
    cases h
    refine .of_counts hs rfl rfl rfl ?_
    rw [if_pos rfl, edgeAllowance, decTick_lockout]
    split <;> omega
  | drainIncrement => exact absurd rfl hi.1
  | drainClicks => exact absurd rfl hi.2.1
  | setLed pos v =>
    obtain ⟨p, -, rfl⟩ := eq_setLedAt_of_exec h
    exact .of_dec_eq hs rfl rfl
  | dispTick => cases h; exact .of_dec_eq hs (dispTick_cfg s) (dispTick_others s).1
  | addrMatch a d => exact hinterrupt (.inr rfl)
  | byteReadyRd => exact hinterrupt (.inr rfl)
  | byteReadyWr b => exact hinterrupt (.inr rfl)
  | stop => exact hinterrupt (.inr rfl)
  | busError => exact hinterrupt (.inr rfl)
  | getCommand => obtain rfl := eq_getCommand_of_exec h; exact getCommand_movesWithin hs hc
  | ctrlTick => exact absurd rfl hi.2.2
  | rdValue => exact hbusreg rfl
  | rdClick => exact hbusreg rfl
  | rdOther off => exact hbusreg rfl
  | wrValue => exact hbusreg rfl
  | wrClick => exact hbusreg rfl
  | wrIllumType => exact hbusreg rfl
  | wrIllumData => exact hbusreg rfl
  | wrOther off => exact hbusreg rfl

theorem runOps_movesWithin {ops : List Instr} {s t : State} (hs : s.dec.clicks < 2 ^ s.cfg.clickWidth)
    (hc : 0 < s.cfg.lockoutTicks) (hops : ∀ i ∈ ops, i ≠ .drainIncrement ∧ i ≠ .drainClicks ∧ i ≠ .ctrlTick)
    (h : runOps ops s = .next t) : MovesWithin (ops.count .decTick) s t := by
  induction ops generalizing s with
  | nil => cases h; exact .of_dec_eq hs rfl rfl
  | cons i ops ih =>
    rw [runOps_cons, andThen_eq_next] at h
    obtain ⟨u, hu, ht⟩ := h
    have hfirst := exec_movesWithin hs hc (hops i (by simp)) hu
    have ⟨_, _, hmoved, _⟩ := hfirst
    have hrest := ih (hmoved.cfg ▸ hmoved.below) (hmoved.cfg ▸ hc) (fun j hj => hops j (by simp [hj])) ht
    rw [List.count_cons, Nat.add_comm]
    simpa using hfirst.trans hrest

/-- Settles O13: a run without `DEC_TICK` stays LOCKED; each accepted edge uses up an allowance. -/
theorem atMostOneEdgeBetweenTicks : Obligations.AtMostOneEdgeBetweenTicks := by
  refine ⟨fun s u e e' between hc he he' hnone h => ?_, fun s t ops hc hs hops h => ?_⟩
  · rw [runOps_cons, andThen_eq_next] at h
    obtain ⟨v, hv, hu⟩ := h
    have hlocked := lockout_pos_after_edge he hv hc
    have hcount : between.count .decTick = 0 := List.count_eq_zero.2 hnone
    refine exec_edge_locked he' ?_
    rw [runOps_lockout hu (by omega)]
    omega
  · obtain ⟨turns, presses, hmoved, hbound⟩ := runOps_movesWithin hs.1 hc hops h
    refine ⟨turns, presses, ?_, ?_, hmoved.clicks⟩
    · have hstart : edgeAllowance s ≤ 1 := by unfold edgeAllowance; split <;> omega
      omega
    · rw [hmoved.increment, toInt_add_ofInt]

/-! ### Edges that are spaced by the lockout (R128) -/

/-- An operation that is no edge, tick or drain leaves increment and lockout. -/
theorem exec_keeps_increment {i : Instr} {s t : State} (hedge : i.format ≠ .edge) (htick : i ≠ .decTick)
    (hi : ¬ (i = .drainIncrement ∨ i = .getCommand ∨ i = .ctrlTick)) (h : exec i s = .next t) :
    t.dec.increment = s.dec.increment ∧ t.dec.lockout = s.dec.lockout := by
  have hbus (hf : BusFrame s t) : t.dec.increment = s.dec.increment ∧ t.dec.lockout = s.dec.lockout := by
    rw [hf.dec]; exact ⟨rfl, rfl⟩
  cases hf : i.format with
  | edge => exact absurd hf hedge
  | busev => exact hbus (busFrame_of_bus (by cases i <;> simp_all [Instr.format, Instr.agent]) h)
  | busreg => exact hbus (busFrame_of_busreg hf h).1
  | tick =>
    cases i with
    | decTick => exact absurd rfl htick
    | dispTick => cases h; rw [(dispTick_others s).1]; exact ⟨rfl, rfl⟩
    | _ => cases hf
  | call =>
    cases i with
    | drainClicks => cases h; exact ⟨rfl, rfl⟩
    | setLed pos v => obtain ⟨p, -, rfl⟩ := eq_setLedAt_of_exec h; exact ⟨rfl, rfl⟩
    | drainIncrement => exact absurd (.inl rfl) hi
    | getCommand => exact absurd (.inr (.inl rfl)) hi
    | _ => cases hf
  | host =>
    cases i with
    | ctrlTick => exact absurd (.inr (.inr rfl)) hi
    | _ => cases hf

theorem turnOf_of_ne_edge {i : Instr} (c : Config) (h : i.format ≠ .edge) : turnOf c i = 0 := by
  cases i with
  | rotEdge level => exact absurd rfl h
  | _ => rfl

/-- An edge that finds the decoder IDLE adds its direction. -/
theorem exec_edge_idle {i : Instr} (hi : i.format = .edge) {s t : State} (hs : s.dec.lockout = 0)
    (h : exec i s = .next t) :
    t.cfg = s.cfg ∧ t.dec.increment = s.dec.increment + BitVec.ofInt 32 (turnOf s.cfg i) ∧
      t.dec.lockout = s.cfg.lockoutTicks := by
  cases i with
  | rotEdge level =>
    obtain rfl := Host.Outcome.next.inj h
    rw [rotEdge, acceptEdge_idle hs]
    exact ⟨rfl, congrArg (s.dec.increment + ·) (turnWord_eq_ofInt _), rfl⟩
  | pressEdge =>
    obtain rfl := Host.Outcome.next.inj h
    rw [pressEdge, acceptEdge_idle hs]
    exact ⟨rfl, by simp [turnOf], rfl⟩
  | _ => cases hi

/-- One operation of a spaced sequence: with at least `k` ticks since the last edge already counted off the lockout, the
same holds after it, an edge finds the decoder IDLE, and the increment moves by the operation's direction. -/
theorem exec_spaced {i : Instr} {rest : List Instr} {k : Nat} {s t : State}
    (hk : s.dec.lockout ≤ s.cfg.lockoutTicks - k) (hspaced : spacedEdges s.cfg.lockoutTicks k (i :: rest) = true)
    (h : exec i s = .next t) :
    (i.format = .edge → s.dec.lockout = 0) ∧
    t.dec.increment = s.dec.increment + BitVec.ofInt 32 (turnOf s.cfg i) ∧
    ∃ k', t.dec.lockout ≤ t.cfg.lockoutTicks - k' ∧ spacedEdges t.cfg.lockoutTicks k' rest = true := by
  rw [spacedEdges] at hspaced
  have hcfg := (parametersNeverChange i s t h).1
  by_cases hedge : i.format = .edge
  · rw [if_pos hedge, Bool.and_eq_true, decide_eq_true_eq] at hspaced
    obtain ⟨hle, hrest⟩ := hspaced
    have hidle : s.dec.lockout = 0 := by omega
    obtain ⟨-, hinc, hlock⟩ := exec_edge_idle hedge hidle h
    exact ⟨fun _ => hidle, hinc, 0, by rw [hlock, hcfg]; omega, by rwa [hcfg]⟩
  · rw [if_neg hedge] at hspaced
    refine ⟨fun he => absurd he hedge, ?_⟩
    rw [turnOf_of_ne_edge s.cfg hedge]
    by_cases htick : i = .decTick
    · subst htick
      cases h
      exact ⟨by simp [decTick], k + 1, by rw [decTick_lockout]; simp only [hcfg]; omega, hspaced⟩
    · rw [if_neg htick] at hspaced
      split_ifs at hspaced with hi
      obtain ⟨hinc, hlock⟩ := exec_keeps_increment hedge htick hi h
      exact ⟨by simp [hinc], k, by rw [hlock, hcfg]; exact hk, by rwa [hcfg]⟩

/-- A run of a spaced sequence: every edge is accepted, and the increment moves by the sum of the directions. -/
theorem runOps_spaced {ops : List Instr} {k : Nat} {s t : State} (hk : s.dec.lockout ≤ s.cfg.lockoutTicks - k)
    (hspaced : spacedEdges s.cfg.lockoutTicks k ops = true) (h : runOps ops s = .next t) :
    t.dec.increment = s.dec.increment + BitVec.ofInt 32 (turnSum s.cfg ops) := by
  induction ops generalizing k s with
  | nil => cases h; simp [turnSum]
  | cons i ops ih =>
    rw [runOps_cons, andThen_eq_next] at h
    obtain ⟨u, hu, ht⟩ := h
    obtain ⟨-, hinc, k', hk', hrest⟩ := exec_spaced hk hspaced hu
    have hcfg := (parametersNeverChange i s u hu).1
    rw [ih hk' hrest ht, hinc, hcfg, BitVec.add_assoc, ← BitVec.ofInt_add]
    rfl

theorem idle_before_edge {pre post : List Instr} {e : Instr} {k : Nat} {s u : State}
    (hk : s.dec.lockout ≤ s.cfg.lockoutTicks - k)
    (hspaced : spacedEdges s.cfg.lockoutTicks k (pre ++ e :: post) = true) (he : e.format = .edge)
    (h : runOps pre s = .next u) : u.dec.lockout = 0 := by
  induction pre generalizing k s with
  | nil =>
    cases h
    obtain ⟨d, hd⟩ := exec_edge he u
    exact (exec_spaced hk hspaced hd).1 he
  | cons i pre ih =>
    rw [runOps_cons, andThen_eq_next] at h
    obtain ⟨v, hv, hu⟩ := h
    obtain ⟨-, -, k', hk', hrest⟩ := exec_spaced hk hspaced hv
    exact ih hk' hrest hu

/-- Settles O11: from an IDLE decoder the first edge is as good as spaced. -/
theorem debouncedTurnsSum : Obligations.DebouncedTurnsSum := by
  intro s t ops hidle hinc hspaced h
  have hstart : s.dec.lockout ≤ s.cfg.lockoutTicks - s.cfg.lockoutTicks := by
    rw [of_decide_eq_true hidle]; exact Nat.zero_le _
  refine ⟨fun pre post e u hops he hu => ?_, t.dec.increment, ?_, rfl⟩
  · subst hops
    exact decide_eq_true (idle_before_edge hstart hspaced he hu)
  · have hzero : s.dec.increment = 0#32 := hinc
    rw [runOps_spaced hstart hspaced h, hzero, BitVec.zero_add, BitVec.toInt_ofInt]

end Sys2Proof.Machine
end

section
/-! SUPPORT. Proofs for spec/10_state.md section 8 and spec/20_memory.md section 6: what each agent writes (R40), what the
operations complete on (R245), and what they do not depend on (R78, R188, R232). -/

namespace Sys2Proof.Machine

/-! ### What each agent writes (R40) -/

/-- With no interrupt between its reads, an operation of the host leaves what is not the host's; a count stays or is
drained. -/
structure ControlFrame (s t : State) : Prop where
  cfg : t.cfg = s.cfg
  increment : t.dec.increment = s.dec.increment ∨ t.dec.increment = 0
  clicks : t.dec.clicks = s.dec.clicks ∨ t.dec.clicks = 0
  lockout : t.dec.lockout = s.dec.lockout
  scan : ScanFrame s t
  regs : t.regs = s.regs
  scr : t.scr = s.scr
  busError : t.busError = s.busError
  inbox : t.inbox = s.inbox

theorem ControlFrame.refl (s : State) : ControlFrame s s :=
  ⟨rfl, .inl rfl, .inl rfl, rfl, .of_eq rfl rfl, rfl, rfl, rfl, rfl⟩

theorem ControlFrame.trans {s t u : State} (h : ControlFrame s t) (k : ControlFrame t u) : ControlFrame s u where
  cfg := k.cfg.trans h.cfg
  increment := k.increment.elim (fun e => e ▸ h.increment) .inr
  clicks := k.clicks.elim (fun e => e ▸ h.clicks) .inr
  lockout := k.lockout.trans h.lockout
  scan := h.scan.trans k.scan
  regs := k.regs.trans h.regs
  scr := k.scr.trans h.scr
  busError := k.busError.trans h.busError
  inbox := k.inbox.trans h.inbox

theorem ControlStep.controlFrame {s t : State} (h : ControlStep s t) : ControlFrame s t := by
  have hscan := h.scanFrame
  cases h with
  | drainIncrement => exact ⟨rfl, .inr rfl, .inl rfl, rfl, hscan, rfl, rfl, rfl, rfl⟩
  | drainClicks => exact ⟨rfl, .inl rfl, .inr rfl, rfl, hscan, rfl, rfl, rfl, rfl⟩
  | _ => exact ⟨rfl, .inl rfl, .inl rfl, rfl, hscan, rfl, rfl, rfl, rfl⟩

theorem SubSteps.controlFrame {irq : Interrupt → Prop} (hnone : ∀ e, ¬ irq e) {s t : State} (h : SubSteps irq s t) :
    ControlFrame s t := by
  induction h with
  | refl => exact .refl s
  | tail _ hstep ih =>
    refine ih.trans ?_
    cases hstep with
    | control hc => exact hc.controlFrame
    | interrupt e he => exact absurd he (hnone e)
    | races l => exact ⟨rfl, .inl rfl, .inl rfl, rfl, .of_eq rfl rfl, rfl, rfl, rfl, rfl⟩

theorem controlFrame_of_host {i : Instr} {s t : State} (hi : i.agent = .host) (hs : s.undisturbed)
    (h : exec i s = .next t) : ControlFrame s t := by
  have hrace : s.race = [] := hs
  exact (subSteps_of_host hi h).controlFrame (by simp [hrace])

theorem ControlFrame.eq {s t : State} (h : ControlFrame s t) :
    t = { s with
          dec := { s.dec with increment := t.dec.increment, clicks := t.dec.clicks }
          disp := { s.disp with intensity := t.disp.intensity, bitplane := t.disp.bitplane, dirbits := t.disp.dirbits }
          host := t.host
          races := t.races
          draws := t.draws
          trace := t.trace } := by
  have hdec : t.dec = ⟨t.dec.increment, t.dec.clicks, s.dec.lockout⟩ := by rw [← h.lockout]
  have hdisp : t.disp = ⟨t.disp.intensity, t.disp.bitplane, t.disp.dirbits, s.disp.scanPhase, s.disp.scanCycle,
      s.disp.dwellCounter, s.disp.out, s.disp.dir⟩ := by
    obtain ⟨-, hph, hcyc, hdwell, hout, hdir⟩ := h.scan
    rw [← hph, ← hcyc, ← hdwell, ← hout, ← hdir]
  exact State.eq_of_fields h.cfg hdec hdisp h.regs h.scr h.busError rfl h.inbox rfl rfl rfl

theorem BusFrame.eq {s t : State} (h : BusFrame s t) :
    t = { s with regs := t.regs, scr := t.scr, busError := t.busError, trace := t.trace } :=
  State.eq_of_fields h.cfg h.dec h.disp rfl rfl rfl h.host h.inbox h.races h.draws rfl

/-- An accepted edge writes one count and the lockout; an ignored edge nothing. -/
theorem edge_writes {i : Instr} {s t : State} (hi : i.agent = .edge) (h : exec i s = .next t) :
    t = { s with dec := t.dec } ∧
      (t.dec.increment = s.dec.increment ∨ t.dec.increment = s.dec.increment + 1 ∨
        t.dec.increment = s.dec.increment - 1) ∧
      (t.dec.clicks = s.dec.clicks ∨ t.dec.clicks = (s.dec.clicks + 1) % 2 ^ s.cfg.clickWidth) ∧
      (t.dec.lockout = s.dec.lockout ∨ t.dec.lockout = s.cfg.lockoutTicks) := by
  rcases Nat.eq_zero_or_pos s.dec.lockout with hidle | hlocked
  · cases i with
    | rotEdge level =>
      obtain rfl := Host.Outcome.next.inj h
      rw [rotEdge, acceptEdge_idle hidle]
      refine ⟨rfl, .inr ?_, .inl rfl, .inr rfl⟩
      cases dirOfLevel s.cfg level
      · exact .inl rfl
      · exact .inr (BitVec.sub_eq_add_neg ..).symm
    | pressEdge =>
      obtain rfl := Host.Outcome.next.inj h
      rw [pressEdge, acceptEdge_idle hidle]
      exact ⟨rfl, .inl rfl, .inr rfl, .inr rfl⟩
    | _ => cases hi
  · have hedge : i.format = .edge := by cases i <;> simp_all [Instr.agent, Instr.format]
    obtain rfl := Host.Outcome.next.inj ((exec_edge_locked hedge hlocked).symm.trans h)
    exact ⟨rfl, .inl rfl, .inl rfl, .inl rfl⟩

/-- A tick counts the lockout down or moves the scan. -/
theorem sched_writes {i : Instr} {s t : State} (hi : i.agent = .sched) (h : exec i s = .next t) :
    t = { s with
          dec := { s.dec with lockout := t.dec.lockout }
          disp := { s.disp with scanPhase := t.disp.scanPhase, scanCycle := t.disp.scanCycle,
                                dwellCounter := t.disp.dwellCounter, out := t.disp.out, dir := t.disp.dir }
          trace := t.trace } ∧
      (t.dec.lockout = s.dec.lockout ∨ t.dec.lockout + 1 = s.dec.lockout) := by
  cases i with
  | decTick =>
    cases h
    refine ⟨rfl, ?_⟩
    rw [decTick_lockout]
    omega
  | dispTick =>
    cases h
    rcases dispTick_cases s with ⟨-, h⟩ | ⟨-, h⟩
    · rw [h]; exact ⟨rfl, .inl rfl⟩
    · rw [h, scanTransition_eq]; exact ⟨rfl, .inl rfl⟩
  | _ => cases hi

/-- Settles O44: one frame for each agent. -/
theorem agentsWriteOnlyTheirOwnState : Obligations.AgentsWriteOnlyTheirOwnState := by
  intro i s t h
  refine ⟨fun hi => edge_writes hi h, fun hi => (busFrame_of_bus hi h).eq, fun hi => sched_writes hi h,
    fun hi hs => ?_⟩
  have hframe := controlFrame_of_host hi hs h
  exact ⟨hframe.eq, hframe.increment, hframe.clicks⟩

/-! ### Completion (R245) -/

theorem execGetCommand_inRange {s : State} (h : s.raceInRange) : execGetCommand s = .next (getCommand s) := by
  rcases execGetCommand_cases s with ⟨-, hnext⟩ | ⟨a, d, hm, ha, -⟩
  · exact hnext
  · rw [h a d hm] at ha; cases ha

/-- Settles O48: the refusals are those of an address and a position out of range. -/
theorem everyBlockOperationCompletes : Obligations.EveryBlockOperationCompletes := by
  intro i s hi hrange hrace
  cases i with
  | setLed pos v => exact ⟨_, execSetLed_in_range v (of_decide_eq_true hrange)⟩
  | addrMatch a d => exact ⟨_, execAddrMatch_matched d hrange⟩
  | getCommand => exact ⟨_, execGetCommand_inRange (hrace rfl)⟩
  | ctrlTick => exact absurd rfl hi
  | _ => exact ⟨_, rfl⟩

/-! ### The reply size (R187) -/

theorem byteReadyRd_replySize (s : State) :
    (byteReadyRd s).scr.direction = s.scr.direction ∧ (byteReadyRd s).scr.size = s.scr.size := by
  unfold byteReadyRd
  split_ifs <;> exact ⟨rfl, rfl⟩

theorem byteReadyWr_direction (b : Byte) (s : State) : (byteReadyWr b s).scr.direction = s.scr.direction := by
  unfold byteReadyWr
  split_ifs
  · rfl
  · rw [State.emit_scr, commitIfComplete_scr]; rfl
  · rfl

theorem addrMatch_replySizeOk (a : Addr) (d : Direction) (s : State) : (addrMatch a d s).ReplySizeOk := by
  cases d
  · intro _
    rw [addrMatch, populateReply_eq]
    split_ifs
    · exact .inr (by simp [rdValue])
    · exact .inr (by simp [rdClick])
    · exact .inl rfl
  · intro h
    cases h

/-- Settles O52: an address phase prepares 0 or 4 bytes, and no other operation of a dutiful driver moves the size of a
reply. -/
theorem replySizeIsZeroOrFour : Obligations.ReplySizeIsZeroOrFour := by
  intro i s t hs hop hdir hundisturbed h
  have hscr (hsame : t.scr = s.scr) : t.ReplySizeOk := by rw [State.ReplySizeOk, hsame]; exact hs
  cases hagent : i.agent with
  | edge => rw [(edge_writes hagent h).1] at *; exact hs
  | sched => rw [(sched_writes hagent h).1] at *; exact hs
  | host => exact hscr (controlFrame_of_host hagent hundisturbed h).scr
  | bus =>
    cases i with
    | addrMatch a d =>
      obtain rfl := eq_runInterrupt_of_exec (e := .addrMatch a d) h
      exact addrMatch_replySizeOk a d s
    | byteReadyRd =>
      cases h
      obtain ⟨hd, hsize⟩ := byteReadyRd_replySize s
      rw [State.ReplySizeOk, hd, hsize]
      exact hs
    | byteReadyWr b =>
      cases h
      intro hread
      rw [byteReadyWr_direction] at hread
      rw [Instr.keepsDirection, hread] at hdir
      cases hdir
    | stop => cases h; exact hscr (stop_scr s)
    | busError => cases h; exact hs
    | rotEdge | pressEdge | decTick | dispTick | drainIncrement | drainClicks | setLed | getCommand | ctrlTick =>
      cases hagent
    | _ => cases hop

/-! ### What an operation does not depend on (R188, R232) -/

/-- The operation does the same on a state changed by `f`, whose change it leaves. -/
def Respects (f : State → State) (op : State → Result) : Prop := ∀ s, op (f s) = mapNext f (op s)

@[simp] theorem mapNext_next (f : State → State) (s : State) : mapNext f (.next s) = .next (f s) := rfl
@[simp] theorem mapNext_refused (f : State → State) (e : Refusal) : mapNext f (.refused e) = .refused e := rfl

theorem andThen_mapNext {f : State → State} {op : State → Result} (h : Respects f op) (r : Result) :
    andThen (mapNext f r) op = mapNext f (andThen r op) := by
  cases r with
  | next s => exact h s
  | fault e => rfl
  | refused e => rfl

theorem Respects.andThen {f : State → State} {op next : State → Result} (h : Respects f op) (k : Respects f next) :
    Respects f (fun s => andThen (op s) next) := fun s => by
  simp only [h s, andThen_mapNext k]

theorem Respects.of_comm {f g : State → State} (h : ∀ s, g (f s) = f (g s)) : Respects f (fun s => .next (g s)) :=
  fun s => congrArg Host.Outcome.next (h s)

/-- The decoder and the display replaced, and something put before the trace. -/
def State.rewired (D : Decoder → Decoder) (X : Display → Display) (past : List Output) (s : State) : State :=
  { s with dec := D s.dec, disp := X s.disp, trace := past ++ s.trace }

section Rewired

variable (D : Decoder → Decoder) (X : Display → Display) (past : List Output) (s : State)

@[simp] theorem rewired_cfg : (s.rewired D X past).cfg = s.cfg := rfl
@[simp] theorem rewired_dec : (s.rewired D X past).dec = D s.dec := rfl
@[simp] theorem rewired_disp : (s.rewired D X past).disp = X s.disp := rfl
@[simp] theorem rewired_regs : (s.rewired D X past).regs = s.regs := rfl
@[simp] theorem rewired_scr : (s.rewired D X past).scr = s.scr := rfl
@[simp] theorem rewired_busError : (s.rewired D X past).busError = s.busError := rfl
@[simp] theorem rewired_host : (s.rewired D X past).host = s.host := rfl
@[simp] theorem rewired_races : (s.rewired D X past).races = s.races := rfl
@[simp] theorem rewired_draws : (s.rewired D X past).draws = s.draws := rfl
@[simp] theorem rewired_withRegs (r : RegisterFile) :
    (s.rewired D X past).withRegs r = (s.withRegs r).rewired D X past := rfl
@[simp] theorem rewired_withScr (c : Scratch) : (s.rewired D X past).withScr c = (s.withScr c).rewired D X past := rfl
@[simp] theorem rewired_withBusError (e : Bool) :
    (s.rewired D X past).withBusError e = (s.withBusError e).rewired D X past := rfl
@[simp] theorem rewired_withHost (h : HostState) :
    (s.rewired D X past).withHost h = (s.withHost h).rewired D X past := rfl
@[simp] theorem rewired_withRaces (l : List (List RaceItem)) :
    (s.rewired D X past).withRaces l = (s.withRaces l).rewired D X past := rfl
@[simp] theorem rewired_withDraws (n : Nat) :
    (s.rewired D X past).withDraws n = (s.withDraws n).rewired D X past := rfl
@[simp] theorem rewired_emit (o : Output) : (s.rewired D X past).emit o = (s.emit o).rewired D X past := by
  simp [State.rewired, State.emit]
@[simp] theorem rewired_raise (c : Condition) : (s.rewired D X past).raise c = (s.raise c).rewired D X past :=
  rewired_emit D X past s _

@[simp] theorem rewired_rdValue : rdValue (s.rewired D X past) = (rdValue s).rewired D X past := by simp [rdValue]
@[simp] theorem rewired_rdClick : rdClick (s.rewired D X past) = (rdClick s).rewired D X past := by simp [rdClick]
@[simp] theorem rewired_wrValue : wrValue (s.rewired D X past) = (wrValue s).rewired D X past := by simp [wrValue]
@[simp] theorem rewired_wrClick : wrClick (s.rewired D X past) = (wrClick s).rewired D X past := by simp [wrClick]
@[simp] theorem rewired_wrIllumType : wrIllumType (s.rewired D X past) = (wrIllumType s).rewired D X past := by
  simp [wrIllumType]
@[simp] theorem rewired_wrIllumData : wrIllumData (s.rewired D X past) = (wrIllumData s).rewired D X past := by
  simp [wrIllumData]

@[simp] theorem rewired_addrMatch (a : Addr) (d : Direction) :
    addrMatch a d (s.rewired D X past) = (addrMatch a d s).rewired D X past := by
  cases d
  · simp only [addrMatch, latchAddress, populateReply_eq, rewired_scr, rewired_cfg, rewired_withScr,
      rewired_withBusError, rewired_emit, rewired_rdValue, rewired_rdClick, apply_ite (State.rewired D X past)]
  · simp [addrMatch, latchAddress]

@[simp] theorem rewired_byteReadyRd : byteReadyRd (s.rewired D X past) = (byteReadyRd s).rewired D X past := by
  simp [byteReadyRd, apply_ite (State.rewired D X past)]

@[simp] theorem rewired_byteReadyWr (b : Byte) :
    byteReadyWr b (s.rewired D X past) = (byteReadyWr b s).rewired D X past := by
  have hcommit (u : State) : commitIfComplete (u.rewired D X past) = (commitIfComplete u).rewired D X past := by
    simp [commitIfComplete_eq, apply_ite (State.rewired D X past)]
  simp [byteReadyWr, hcommit, apply_ite (State.rewired D X past)]

@[simp] theorem rewired_stop : stop (s.rewired D X past) = (stop s).rewired D X past := by
  simp [stop, apply_ite (State.rewired D X past)]

@[simp] theorem rewired_busErrorEvent : busErrorEvent (s.rewired D X past) = (busErrorEvent s).rewired D X past := by
  simp [busErrorEvent]

/-- An operation of the responder reads neither decoder nor display nor trace. -/
theorem bus_respects_rewired {i : Instr} (hi : i.agent = .bus) : Respects (State.rewired D X past) (exec i) := by
  cases i with
  | addrMatch a d =>
    intro s
    simp only [exec, execAddrMatch, rewired_cfg, rewired_addrMatch, apply_ite (mapNext (State.rewired D X past)), mapNext_next, mapNext_refused]
  | byteReadyRd => exact .of_comm (rewired_byteReadyRd D X past)
  | byteReadyWr b => exact .of_comm (rewired_byteReadyWr D X past · b)
  | stop => exact .of_comm (rewired_stop D X past)
  | busError => exact .of_comm (rewired_busErrorEvent D X past)
  | rdValue => exact .of_comm (rewired_rdValue D X past)
  | rdClick => exact .of_comm (rewired_rdClick D X past)
  | rdOther off => exact .of_comm fun _ => rfl
  | wrValue => exact .of_comm (rewired_wrValue D X past)
  | wrClick => exact .of_comm (rewired_wrClick D X past)
  | wrIllumType => exact .of_comm (rewired_wrIllumType D X past)
  | wrIllumData => exact .of_comm (rewired_wrIllumData D X past)
  | wrOther off => exact .of_comm fun _ => rfl
  | _ => cases hi

end Rewired

/-- The registers, the scratch and the error flag replaced, and something put before the trace. -/
def State.rebused (R : RegisterFile → RegisterFile) (C : Scratch → Scratch) (E : Bool → Bool) (past : List Output)
    (s : State) : State :=
  { s with regs := R s.regs, scr := C s.scr, busError := E s.busError, trace := past ++ s.trace }

section Rebused

variable (R : RegisterFile → RegisterFile) (C : Scratch → Scratch) (E : Bool → Bool) (past : List Output) (s : State)

@[simp] theorem rebused_cfg : (s.rebused R C E past).cfg = s.cfg := rfl
@[simp] theorem rebused_dec : (s.rebused R C E past).dec = s.dec := rfl
@[simp] theorem rebused_disp : (s.rebused R C E past).disp = s.disp := rfl
@[simp] theorem rebused_withDec (d : Decoder) :
    (s.rebused R C E past).withDec d = (s.withDec d).rebused R C E past := rfl
@[simp] theorem rebused_withDisp (d : Display) :
    (s.rebused R C E past).withDisp d = (s.withDisp d).rebused R C E past := rfl
@[simp] theorem rebused_emit (o : Output) : (s.rebused R C E past).emit o = (s.emit o).rebused R C E past := by
  simp [State.rebused, State.emit]
@[simp] theorem rebused_showPins : (s.rebused R C E past).showPins = s.showPins.rebused R C E past :=
  rebused_emit R C E past s _

@[simp] theorem rebused_acceptEdge (d : Decoder) :
    acceptEdge (s.rebused R C E past) d = (acceptEdge s d).rebused R C E past := by
  unfold acceptEdge
  rw [rebused_dec, rebused_cfg, rebused_withDec]
  split <;> rfl

theorem rebused_dispTick : dispTick (s.rebused R C E past) = (dispTick s).rebused R C E past := by
  have hscan : scanTransition (s.rebused R C E past) = (scanTransition s).rebused R C E past := by
    simp [scanTransition, clearPins, advanceScan_eq, drivePins]
  simp [dispTick, hscan, apply_ite (State.rebused R C E past)]

theorem rebused_execSetLed (pos : Int) (v : Byte) : Respects (State.rebused R C E past) (execSetLed pos v) := fun s => by
  unfold execSetLed
  rw [rebused_cfg]
  split <;> rfl

/-- An operation of the decoder or the display reads nothing of the responder and no trace. -/
theorem block_respects_rebused {i : Instr}
    (hi : i.agent = .edge ∨ i.agent = .sched ∨ i = .drainIncrement ∨ i = .drainClicks ∨ ∃ pos v, i = .setLed pos v) :
    Respects (State.rebused R C E past) (exec i) := by
  cases i with
  | rotEdge level => exact .of_comm fun s => by simp [rotEdge]
  | pressEdge => exact .of_comm fun s => by simp [pressEdge]
  | decTick => exact .of_comm fun s => by simp [decTick]
  | dispTick => exact .of_comm (rebused_dispTick R C E past)
  | drainIncrement => exact .of_comm fun s => by simp [drainIncrement]
  | drainClicks => exact .of_comm fun s => by simp [drainClicks]
  | setLed pos v => exact rebused_execSetLed R C E past pos v
  | _ => simp [Instr.agent] at hi

end Rebused

/-- Settles O45: each side's operations leave a replacement of the other side. -/
theorem responderIsIsolated : Obligations.ResponderIsIsolated := by
  refine ⟨fun i s d x hi => ?_, fun i s r c e hi => ?_⟩
  · rcases hi with hbus | ⟨rfl, hs⟩
    · exact bus_respects_rewired (fun _ => d) (fun _ => x) [] hbus s
    · have hs' : State.undisturbed { s with dec := d, disp := x } := hs
      change execGetCommand _ = mapNext _ (execGetCommand s)
      rw [execGetCommand_undisturbed hs, execGetCommand_undisturbed hs', getCommand_undisturbed hs,
        getCommand_undisturbed hs']
      rfl
  · exact block_respects_rebused (fun _ => r) (fun _ => c) (fun _ => e) [] hi s

/-- What an edge makes of the decoder. -/
def edgeDecoder (c : Config) (i : Instr) (d : Decoder) : Decoder :=
  if d.lockout = 0 then
    match i with
    | .rotEdge level => { d with increment := d.increment + turnWord (dirOfLevel c level), lockout := c.lockoutTicks }
    | .pressEdge => { d with clicks := (d.clicks + 1) % 2 ^ c.clickWidth, lockout := c.lockoutTicks }
    | _ => d
  else d

theorem exec_edge_eq_rewired {i : Instr} (hi : i.agent = .edge) (s : State) :
    exec i s = .next (s.rewired (edgeDecoder s.cfg i) id []) := by
  rcases Nat.eq_zero_or_pos s.dec.lockout with hidle | hlocked
  · cases i with
    | rotEdge level =>
      refine congrArg Host.Outcome.next ((acceptEdge_idle hidle _).trans ?_)
      simp only [State.rewired, edgeDecoder, if_pos hidle]
      rfl
    | pressEdge =>
      refine congrArg Host.Outcome.next ((acceptEdge_idle hidle _).trans ?_)
      simp only [State.rewired, edgeDecoder, if_pos hidle]
      rfl
    | _ => cases hi
  · have hedge : i.format = .edge := by cases i <;> simp_all [Instr.agent, Instr.format]
    have hsame : edgeDecoder s.cfg i s.dec = s.dec := if_neg hlocked.ne'
    rw [exec_edge_locked hedge hlocked, State.rewired, hsame]
    rfl

/-- Settles O43: the edge rewrites the decoder, which the responder does not read. -/
theorem edgeAndBusOperationsCommute : Obligations.EdgeAndBusOperationsCommute := by
  intro e b s he hb
  have hcomm := bus_respects_rewired (edgeDecoder s.cfg e) id [] hb s
  have hedge := exec_edge_eq_rewired he s
  have hsecond : runOps [e, b] s = exec b (s.rewired (edgeDecoder s.cfg e) id []) := by
    rw [runOps_cons, hedge, andThen_next, runOps_cons]
    cases exec b (s.rewired (edgeDecoder s.cfg e) id []) <;> rfl
  refine ⟨?_, fun hrange => ?_⟩
  · rw [hsecond, hcomm, runOps_cons]
    cases hexec : exec b s with
    | next t =>
      rw [andThen_next, runOps_cons, exec_edge_eq_rewired he t, (busFrame_of_bus hb hexec).cfg]
      rfl
    | fault r => rfl
    | refused r => rfl
  · obtain ⟨t, ht⟩ := everyBlockOperationCompletes b s (by rintro rfl; cases hb) hrange (by rintro rfl; cases hb)
    exact ⟨_, by rw [hsecond, hcomm, ht]; rfl⟩

/-! ### The trace is never read (R232) -/

/-- Something put before the trace, as a change of the state that replaces nothing else. -/
abbrev before (past : List Output) : State → State := State.rewired id id past

section Past

variable (past : List Output)

theorem before_runInterrupt (e : Interrupt) (s : State) :
    runInterrupt e (before past s) = before past (runInterrupt e s) := by
  cases e with
  | rotEdge level => exact rebused_acceptEdge id id id past s _
  | pressEdge => exact rebused_acceptEdge id id id past s _
  | addrMatch a d => exact rewired_addrMatch id id past s a d
  | byteReadyRd => exact rewired_byteReadyRd id id past s
  | byteReadyWr b => exact rewired_byteReadyWr id id past s b
  | stop => exact rewired_stop id id past s
  | busError => exact rewired_busErrorEvent id id past s

theorem before_foldl_raceStep (items : List RaceItem) (s : State) (r : Reads) :
    items.foldl raceStep (before past s, r) =
      (before past (items.foldl raceStep (s, r)).1, (items.foldl raceStep (s, r)).2) := by
  induction items generalizing s r with
  | nil => rfl
  | cons x items ih =>
    cases x with
    | interrupt e =>
      simp only [List.foldl_cons, raceStep, before_runInterrupt]
      exact ih _ _
    | readAddr => exact ih _ _
    | readSize => exact ih _ _
    | readByte i => exact ih _ _

theorem before_raced (s : State) : raced (before past s) = (before past (raced s).1, (raced s).2) :=
  before_foldl_raceStep past s.race (s.withRaces s.races.tail) Reads.start

theorem before_commandRead (s : State) : commandRead (before past s) = commandRead s := by
  simp [commandRead, before_raced, raceResult]

theorem before_execGetCommand : Respects (before past) execGetCommand := fun s => by
  have hget : getCommand (before past s) = before past (getCommand s) := by
    simp [getCommand, before_raced, before_commandRead]
  have hrace : (before past s).race = s.race := rfl
  rw [execGetCommand, execGetCommand, hget, hrace, rewired_cfg]
  cases unmatchedIn s.cfg s.race <;> rfl

theorem before_execSetLed (pos : Int) (v : Byte) : Respects (before past) (execSetLed pos v) :=
  rebused_execSetLed id id id past pos v

theorem before_paint (calls : List (Int × Byte)) : Respects (before past) (paint calls) := by
  induction calls with
  | nil => exact fun s => rfl
  | cons q calls ih => exact (before_execSetLed past q.1 q.2).andThen ih

theorem before_drainIncrement (s : State) : drainIncrement (before past s) = before past (drainIncrement s) :=
  rewired_emit id id past (s.withDec _) _

theorem before_drainClicks (s : State) : drainClicks (before past s) = before past (drainClicks s) :=
  rewired_emit id id past (s.withDec _) _

theorem before_toggleMode : Respects (before past) toggleMode := fun s => by
  simp only [toggleMode, rewired_cfg, rewired_host, rewired_withHost, before_paint past _ _]

theorem before_toggleTimes (k : Nat) : Respects (before past) (toggleTimes k) := by
  induction k with
  | zero => exact fun s => rfl
  | succ k ih => exact (before_toggleMode past).andThen ih

theorem before_clickPhase (d : HostDraw) : Respects (before past) (clickPhase d) := fun s => by
  rw [clickPhase, before_drainClicks, before_toggleTimes, rewired_dec, id, clickPhase]

theorem before_paintFrame (d : HostDraw) (dir : Int) : Respects (before past) (paintFrame d dir) := fun s => by
  unfold paintFrame
  simp only [rewired_host, rewired_cfg, rewired_withHost]
  split <;> exact before_paint past _ _

theorem before_frame (d : HostDraw) : Respects (before past) (frame d) := fun s => by
  have hhost : frameHost (before past s) = frameHost s := rfl
  have hspeed : foldedSpeed (before past s) = foldedSpeed s := rfl
  rw [frame, before_drainIncrement, hhost, hspeed, rewired_withHost, rewired_cfg, before_paint,
    andThen_mapNext (before_paintFrame past d _), frame]

theorem before_normalTick (d : HostDraw) : Respects (before past) (normalTick d) := fun s => by
  simp only [normalTick, rewired_host, rewired_withHost, before_frame past d s, apply_ite (mapNext (before past)),
    mapNext_next]

theorem before_adjustBy (v : Int) : Respects (before past) (adjustBy v) := fun s => by
  simp only [adjustBy, rewired_host, rewired_cfg, rewired_withHost, before_paint past _ _]

theorem before_handlerPhase (d : HostDraw) : Respects (before past) (handlerPhase d) := fun s => by
  unfold handlerPhase
  rw [before_drainIncrement, rewired_host, rewired_dec, id]
  cases s.host.mode
  · exact before_normalTick past d s
  · exact before_adjustBy past _ _

theorem before_inject (v : Int) : Respects (before past) (inject v) := fun s => by
  unfold inject
  rw [rewired_host]
  cases s.host.mode
  · rfl
  · exact before_adjustBy past v s

theorem before_dispatchCommand (accepted : Bool) (cmd : Addr × List Byte) :
    Respects (before past) (dispatchCommand accepted cmd) := fun s => by
  unfold dispatchCommand
  split
  · split_ifs
    · exact before_inject past _ s
    · rfl
    · exact congrArg Host.Outcome.next (rewired_raise id id past s _)
  · split_ifs
    · exact before_toggleMode past s
    · rfl
  · rfl

theorem before_commandPhase (d : HostDraw) : Respects (before past) (commandPhase d) := fun s => by
  rw [commandPhase, commandPhase, before_execGetCommand past s, before_commandRead]
  refine andThen_mapNext (fun t => ?_) (execGetCommand s)
  exact before_dispatchCommand past _ _ (t.withHost _)

theorem Respects.inOrder {f : State → State} {a b c : State → Result} (ha : Respects f a) (hb : Respects f b)
    (hc : Respects f c) (o : Fin 6) : Respects f (inOrder o a b c) := fun s => by
  unfold Machine.inOrder
  split
  · exact (ha.andThen hb).andThen hc s
  · exact (ha.andThen hc).andThen hb s
  · exact (hb.andThen ha).andThen hc s
  · exact (hb.andThen hc).andThen ha s
  · exact (hc.andThen ha).andThen hb s
  · exact (hc.andThen hb).andThen ha s

theorem before_execCtrlTick : Respects (before past) execCtrlTick := fun s =>
  ((before_clickPhase past _).inOrder (before_handlerPhase past _) (before_commandPhase past _) _)
    (s.withDraws (s.draws + 1))

end Past

/-- Settles O46: by agent, the operations of the host one by one. -/
theorem traceIsNeverRead : Obligations.TraceIsNeverRead := by
  intro i s past
  have hblock := block_respects_rebused id id id past (i := i)
  cases hagent : i.agent with
  | edge => exact hblock (.inl hagent) s
  | bus => exact bus_respects_rewired id id past hagent s
  | sched => exact hblock (.inr (.inl hagent)) s
  | host =>
    cases i with
    | drainIncrement => exact hblock (by simp) s
    | drainClicks => exact hblock (by simp) s
    | setLed pos v => exact hblock (by simp) s
    | getCommand => exact before_execGetCommand past s
    | ctrlTick => exact before_execCtrlTick past s
    | _ => cases hagent

end Sys2Proof.Machine
end

section
/-! SUPPORT. Proofs for spec/42_bus_responder.md: the address phase, the two byte events, the commits, whole
transactions, and `GET_COMMAND` with its interleavings (R171 to R188). -/

namespace Sys2Proof.Machine

/-! ### The address phase (R171 to R173, R175) -/

theorem addressMatched_iff {c : Config} {a : Addr} : addressMatched c a = true ↔ a &&& ~~~c.busMask = c.busBase :=
  beq_iff_eq

theorem exec_addrMatch {s : State} {a : Addr} (d : Direction) (h : a &&& ~~~s.cfg.busMask = s.cfg.busBase) :
    exec (.addrMatch a d) s = .next (addrMatch a d s) :=
  execAddrMatch_matched d (addressMatched_iff.2 h)

theorem latchAddress_eq (a : Addr) (d : Direction) (s : State) :
    latchAddress a d s =
      { s with
        scr := { s.scr with latchedAddress := a &&& s.cfg.busMask, direction := d, offset := 0, size := 0 }
        busError := false
        trace := s.trace ++ [.addressAck] } := rfl

theorem rdValue_eq (s : State) :
    rdValue s = { s with scr := { s.scr with buffer := storeBe32 s.scr.buffer s.regs.value, size := 4 },
                         regs := { s.regs with value := 0 } } := rfl

theorem rdClick_eq (s : State) :
    rdClick s = { s with scr := { s.scr with buffer := storeBe32 s.scr.buffer s.regs.clickCount, size := 4 },
                         regs := { s.regs with clickCount := 0 } } := rfl

/-- The reply that a read-direction address phase prepares, by the selector. -/
theorem addrMatch_read_eq (a : Addr) (s : State) :
    addrMatch a .read s =
      if a &&& s.cfg.busMask = 0 then rdValue (latchAddress a .read s)
      else if a &&& s.cfg.busMask = 1 then rdClick (latchAddress a .read s) else latchAddress a .read s :=
  populateReply_eq _

/-- Settles O23: the write direction only latches. -/
theorem addrMatchForWriteOnlyStartsTheScratchOver : Obligations.AddrMatchForWriteOnlyStartsTheScratchOver := by
  intro s a h
  rw [exec_addrMatch .write h, addrMatch, latchAddress_eq]

/-- Settles O24: the reply of selector 0. -/
theorem readOfValueClearsIt : Obligations.ReadOfValueClearsIt := by
  intro s a
  refine ⟨storeBe32 s.scr.buffer s.regs.value, storeBe32_toList _ _, congrArg Host.Outcome.next (rdValue_eq s), fun hmatch h0 => ?_⟩
  rw [exec_addrMatch .read hmatch, addrMatch_read_eq, if_pos h0, rdValue_eq, latchAddress_eq, h0]

/-- Settles O25: the reply of selector 1. -/
theorem readOfClickCountClearsIt : Obligations.ReadOfClickCountClearsIt := by
  intro s a
  refine ⟨storeBe32 s.scr.buffer s.regs.clickCount, storeBe32_toList _ _, congrArg Host.Outcome.next (rdClick_eq s),
    fun hmatch h1 => ?_⟩
  have h0 : a &&& s.cfg.busMask ≠ 0 := by rw [h1]; decide
  rw [exec_addrMatch .read hmatch, addrMatch_read_eq, if_neg h0, if_pos h1, rdClick_eq, latchAddress_eq, h1]

/-! ### BYTE_READY_RD (R174) -/

theorem byteReadyRd_abandoned {s : State} (h : s.busError = true) : byteReadyRd s = s.emit (.data 0xFF) := if_pos h

theorem byteReadyRd_past {s : State} (he : s.busError = false) (h : s.scr.size ≤ s.scr.offset) :
    byteReadyRd s = { s with trace := s.trace ++ [.condition .overread, .data 0xFF] } := by
  rw [byteReadyRd, if_neg (by simp [he]), if_neg (by omega)]
  simp [State.raise, State.emit]

theorem byteReadyRd_pops {s : State} (he : s.busError = false) (h : s.scr.offset < s.scr.size) :
    byteReadyRd s = (s.withScr s.scr.advance).emit (.data (s.scr.buffer.getD s.scr.offset 0)) := by
  rw [byteReadyRd, if_neg (by simp [he]), if_pos h]
  rfl

/-- Settles O28: the three branches of the event. -/
theorem byteReadyRdPopsTheReply : Obligations.ByteReadyRdPopsTheReply := by
  intro s
  refine ⟨fun he => congrArg Host.Outcome.next (byteReadyRd_abandoned he), fun he h => congrArg Host.Outcome.next (byteReadyRd_past he h),
    fun he h h20 => ?_⟩
  rw [← getD_eq_getElem s.scr.buffer s.scr.offset h20]
  exact congrArg Host.Outcome.next (byteReadyRd_pops he h)

/-- Settles O26: an empty reply, so every byte is past it. -/
theorem readOfOtherOffsetsIsEmpty : Obligations.ReadOfOtherOffsetsIsEmpty := by
  intro s a
  refine ⟨fun _ _ _ => rfl, fun hmatch h0 h1 => ⟨latchAddress a .read s, ?_, latchAddress_eq a .read s,
    fun past => congrArg Host.Outcome.next (byteReadyRd_past rfl (Nat.le_refl 0))⟩⟩
  rw [exec_addrMatch .read hmatch, addrMatch_read_eq, if_neg h0, if_neg h1]

/-- Settles O27: the check of the address, and the first address of the race that fails it. -/
theorem addressesOfOtherDevicesAreRefused : Obligations.AddressesOfOtherDevicesAreRefused := by
  refine ⟨fun s a d h => if_neg (mt addressMatched_iff.1 h), fun s a d hmem h => ?_⟩
  rcases execGetCommand_cases s with ⟨hrange, -⟩ | ⟨a', d', hmem', hother, hrefused⟩
  · exact absurd (addressMatched_iff.1 (hrange a d hmem)) h
  · exact ⟨a', d', hmem', mt addressMatched_iff.2 (by simp [hother]), hrefused⟩

/-! ### BYTE_READY_WR and the commits (R176 to R179, R183 to R185) -/

/-- The registers after a byte made the size what it is: a fixed-width register takes the buffer at its width (R176). -/
def committed (off : Addr) (size : Nat) (buf : Vector Byte 20) (r : RegisterFile) : RegisterFile :=
  if off = 0 ∧ size = 4 then { r with value := loadBe32 buf }
  else if off = 1 ∧ size = 4 then { r with clickCount := loadBe32 buf }
  else if off = 3 ∧ size = 1 then { r with illumType := buf[0] }
  else r

theorem commitIfComplete_eq_withRegs (s : State) :
    commitIfComplete s = s.withRegs (committed s.scr.latchedAddress s.scr.size s.scr.buffer s.regs) := by
  rw [commitIfComplete_eq, committed]
  split_ifs
  · rfl
  · rfl
  · rfl
  · exact (State.withRegs_self s).symm

theorem byteReadyWr_abandoned (b : Byte) {s : State} (h : s.busError = true) : byteReadyWr b s = s.emit .ack := if_pos h

theorem byteReadyWr_full (b : Byte) {s : State} (he : s.busError = false) (h : 20 ≤ s.scr.size) :
    byteReadyWr b s = { s with trace := s.trace ++ [.condition .overwrite, .ack] } := by
  rw [byteReadyWr, if_neg (by simp [he]), if_neg (Nat.not_lt.2 h)]
  simp [State.raise, State.emit]

theorem byteReadyWr_stores (b : Byte) {s : State} (he : s.busError = false) (h : s.scr.size < 20) :
    byteReadyWr b s =
      { s with
        scr := s.scr.append b
        regs := committed s.scr.latchedAddress (s.scr.size + 1) (s.scr.buffer.setIfInBounds s.scr.size b) s.regs
        trace := s.trace ++ [.ack] } := by
  rw [byteReadyWr, if_neg (by simp [he]), if_pos h, commitIfComplete_eq_withRegs]
  rfl

theorem getElem_setIfInBounds_eq (buf : Vector Byte 20) (n : Nat) (b : Byte) (i : Nat) (h : i < 20) :
    (buf.setIfInBounds n b)[i] = if i = n then b else buf[i] := by
  rw [Vector.getElem_setIfInBounds h]
  exact if_congr eq_comm rfl rfl

/-- Settles O29: the three branches of the event, with the commit of the third. -/
theorem byteReadyWrStoresAndCommits : Obligations.ByteReadyWrStoresAndCommits := by
  intro s b
  refine ⟨fun he => congrArg Host.Outcome.next (byteReadyWr_abandoned b he), fun he h => congrArg Host.Outcome.next (byteReadyWr_full b he h),
    fun he h => ⟨_, _, getElem_setIfInBounds_eq s.scr.buffer s.scr.size b, ?_, congrArg Host.Outcome.next (byteReadyWr_stores b he h)⟩⟩
  simp only [committed, Nat.add_eq_right, show s.scr.size + 1 = 4 ↔ s.scr.size = 3 by omega]
  split_ifs with h0 h1 h3
  · rfl
  · rfl
  · rw [getElem_setIfInBounds_eq, if_pos h3.2.symm]
  · rfl

/-- Settles O30: the commits of the two words, and the fourth byte. -/
theorem fourByteWritesOverwrite : Obligations.FourByteWritesOverwrite := by
  intro s
  refine ⟨rfl, rfl, fun he hsize b => ⟨byteReadyWr b s, rfl, ?_, fun h0 => ?_, fun h1 => ?_⟩⟩ <;>
    rw [byteReadyWr_stores b he (by omega)]
  · simp [hsize]
  · simp [committed, h0, hsize, loadBe32, fromBe]
  · simp [committed, h1, hsize, loadBe32, fromBe]

/-- Settles O31: the first byte makes the width of `illum_type`, the second goes past it. -/
theorem writeOfIllumTypeTakesTheFirstByte : Obligations.WriteOfIllumTypeTakesTheFirstByte := by
  intro s
  refine ⟨rfl, fun he h3 hsize b b' => ⟨byteReadyWr b s, byteReadyWr b' (byteReadyWr b s), rfl, ?_, rfl, ?_⟩⟩ <;>
    rw [byteReadyWr_stores b he (by omega)]
  · simp [committed, h3, hsize]
  · rw [byteReadyWr_stores b' (by exact he) (by simp [hsize])]
    simp [committed, h3, hsize]

theorem stop_eq (s : State) :
    stop s = if s.busError = false ∧ s.scr.direction = .write ∧ s.scr.latchedAddress = 4 then
      { s with regs := { s.regs with illumData := zeroPadded s.scr.buffer s.scr.size } } else s := rfl

/-- Settles O32: the padded buffer, committed under the condition of `STOP`. -/
theorem stopCommitsIllumDataOnly : Obligations.StopCommitsIllumDataOnly := fun s =>
  ⟨zeroPadded s.scr.buffer s.scr.size, zeroPadded_getElem s.scr.buffer s.scr.size, rfl, congrArg Host.Outcome.next (stop_eq s)⟩

/-- A selector that names no register commits nothing. -/
theorem committed_other {off : Addr} (h0 : off ≠ 0) (h1 : off ≠ 1) (h3 : off ≠ 3) (n : Nat) (buf : Vector Byte 20)
    (r : RegisterFile) : committed off n buf r = r := by
  rw [committed, if_neg fun h => h0 h.1, if_neg fun h => h1 h.1, if_neg fun h => h3 h.1]

/-- Settles O33: neither a byte nor `STOP` commits at such a selector. -/
theorem writeOfOtherOffsetsNeverCommits : Obligations.WriteOfOtherOffsetsNeverCommits := by
  intro s
  refine ⟨fun _ _ _ _ _ => rfl, fun h0 h1 h3 h4 => ⟨fun b => ⟨byteReadyWr b s, rfl, ?_⟩,
    congrArg Host.Outcome.next (stop_of_ne_four h4)⟩⟩
  unfold byteReadyWr
  split_ifs
  · rfl
  · rw [State.emit_regs, commitIfComplete_eq_withRegs]
    exact committed_other h0 h1 h3 ..
  · rfl

/-! ### Abandoned transactions (R180) -/

/-- Settles O34: the event itself. -/
theorem busErrorOnlySetsTheFlag : Obligations.BusErrorOnlySetsTheFlag := fun _ => rfl

/-- In an abandoned transaction an event without an address phase only shows something, of bytes the sentinel. -/
theorem exec_abandoned {i : Instr} {s : State} (hs : s.busError = true)
    (hi : i.format = .busev ∧ ∀ a d, i ≠ .addrMatch a d) :
    ∃ shown, exec i s = .next { s with trace := s.trace ++ shown } ∧ ∀ b, Output.data b ∈ shown → b = 0xFF := by
  obtain ⟨hformat, haddr⟩ := hi
  cases i with
  | addrMatch a d => exact absurd rfl (haddr a d)
  | byteReadyRd => exact ⟨[.data 0xFF], congrArg Host.Outcome.next (byteReadyRd_abandoned hs), by simp⟩
  | byteReadyWr b => exact ⟨[.ack], congrArg Host.Outcome.next (byteReadyWr_abandoned b hs), by simp⟩
  | stop =>
    refine ⟨[], congrArg Host.Outcome.next ?_, by simp⟩
    rw [stop_eq, if_neg (by simp [hs]), List.append_nil]
  | busError =>
    refine ⟨[.condition .busError], congrArg Host.Outcome.next ?_, by simp⟩
    rw [busErrorEvent, ← hs, State.withBusError_self]
    rfl
  | _ => cases hformat

theorem runOps_abandoned {ops : List Instr} {s : State} (hs : s.busError = true)
    (hops : ∀ i ∈ ops, i.format = .busev ∧ ∀ a d, i ≠ .addrMatch a d) :
    ∃ shown, runOps ops s = .next { s with trace := s.trace ++ shown } ∧ ∀ b, Output.data b ∈ shown → b = 0xFF := by
  induction ops generalizing s with
  | nil => exact ⟨[], by simp, by simp⟩
  | cons i ops ih =>
    obtain ⟨first, hfirst, hff⟩ := exec_abandoned hs (hops i (by simp))
    obtain ⟨rest, hrest, hrf⟩ := ih (s := { s with trace := s.trace ++ first }) hs fun j hj => hops j (by simp [hj])
    refine ⟨first ++ rest, ?_, fun b hb => (List.mem_append.1 hb).elim (hff b) (hrf b)⟩
    rw [runOps_cons, hfirst, andThen_next, hrest, List.append_assoc]

/-- An address phase clears the error flag (R171). -/
theorem addrMatch_busError (a : Addr) (d : Direction) (s : State) : (addrMatch a d s).busError = false := by
  cases d
  · rw [addrMatch_read_eq]
    split_ifs <;> simp [rdValue, rdClick, latchAddress]
  · rfl

/-- Settles O35: what was shown is all that changed. -/
theorem abandonedTransactionHasNoEffect : Obligations.AbandonedTransactionHasNoEffect := by
  intro s ops hs hops
  obtain ⟨shown, hrun, hdata⟩ := runOps_abandoned hs hops
  exact ⟨_, hrun, rfl, by simpa using hdata, fun a d hmatch => ⟨_, exec_addrMatch d hmatch, addrMatch_busError a d _⟩⟩

/-! ### Whole writes (R66, R67, R96) -/

/-- The word of the first four bytes. -/
def firstWord (bytes : List Byte) : Word := fromBe (bytes.getD 0 0) (bytes.getD 1 0) (bytes.getD 2 0) (bytes.getD 3 0)

/-- The registers after the bytes of a write, before its `STOP`: a fixed-width register has taken its first bytes. -/
def written (off : Addr) (bytes : List Byte) (r : RegisterFile) : RegisterFile :=
  if off = 0 ∧ 4 ≤ bytes.length then { r with value := firstWord bytes }
  else if off = 1 ∧ 4 ≤ bytes.length then { r with clickCount := firstWord bytes }
  else if off = 3 ∧ 1 ≤ bytes.length then { r with illumType := bytes.getD 0 0 }
  else r

/-- The state inside a write to `off` that began in `s`, after some bytes. -/
structure Writing (s : State) (off : Addr) (bytes : List Byte) (u : State) : Prop where
  frame : BusFrame s u
  busError : u.busError = false
  latchedAddress : u.scr.latchedAddress = off
  direction : u.scr.direction = .write
  size : u.scr.size = min 20 bytes.length
  stored : u.scr.buffer.toList.take u.scr.size = bytes.take 20
  regs : u.regs = written off bytes s.regs
  trace : ∃ shown, u.trace = s.trace ++ shown ∧ shown.count .ack = bytes.length

theorem written_other {off : Addr} (h0 : off ≠ 0) (h1 : off ≠ 1) (h3 : off ≠ 3) (bytes : List Byte)
    (r : RegisterFile) : written off bytes r = r := by
  rw [written, if_neg fun h => h0 h.1, if_neg fun h => h1 h.1, if_neg fun h => h3 h.1]

theorem written_nil (off : Addr) (r : RegisterFile) : written off [] r = r := by
  simp [written]

/-- The first bytes of the buffer, one by one. -/
theorem buffer_getElem_of_stored {buf : Vector Byte 20} {bytes : List Byte} {n : Nat}
    (h : buf.toList.take n = bytes.take 20) {i : Nat} (hi : i < 20) (hn : i < n) : buf[i] = bytes.getD i 0 := by
  have hget := congrArg (fun l => l[i]?) h
  simp only [List.getElem?_take, hn, hi, if_true] at hget
  rw [List.getD_eq_getElem?_getD, ← hget, Vector.getElem?_toList, Vector.getElem?_eq_getElem hi, Option.getD_some]

theorem getD_append_left (l m : List Byte) {i : Nat} (h : i < l.length) : (l ++ m).getD i 0 = l.getD i 0 := by
  simp [List.getElem?_append_left h]

theorem firstWord_append {l : List Byte} (m : List Byte) (h : 4 ≤ l.length) : firstWord (l ++ m) = firstWord l := by
  rw [firstWord, getD_append_left l m (by omega), getD_append_left l m (by omega), getD_append_left l m (by omega),
    getD_append_left l m (by omega), firstWord]

theorem loadBe32_of_stored {buf : Vector Byte 20} {bytes : List Byte} {n : Nat}
    (h : buf.toList.take n = bytes.take 20) (hn : 4 ≤ n) : loadBe32 buf = firstWord bytes := by
  rw [loadBe32, firstWord, buffer_getElem_of_stored h _ (by omega), buffer_getElem_of_stored h _ (by omega),
    buffer_getElem_of_stored h _ (by omega), buffer_getElem_of_stored h _ (by omega)]

/-- One more byte: at the register's width it is committed, past it nothing changes. -/
theorem committed_written {off : Addr} {bytes : List Byte} {b : Byte} (r : RegisterFile) {buf : Vector Byte 20}
    (h : buf.toList.take (bytes.length + 1) = (bytes ++ [b]).take 20) :
    committed off (bytes.length + 1) buf (written off bytes r) = written off (bytes ++ [b]) r := by
  have hlength : (bytes ++ [b]).length = bytes.length + 1 := by simp
  have hload (h4 : bytes.length + 1 = 4) : loadBe32 buf = firstWord (bytes ++ [b]) := loadBe32_of_stored h (by omega)
  have hfirst : buf[0] = (bytes ++ [b]).getD 0 0 := buffer_getElem_of_stored h (by omega) (by omega)
  have hword (h4 : 4 ≤ bytes.length) := firstWord_append [b] h4
  by_cases h0 : off = 0
  · subst h0
    simp only [committed, written, hlength]
    rcases Nat.lt_trichotomy (bytes.length + 1) 4 with hlt | heq | hgt
    · simp [hlt.ne, hlt.not_ge, show ¬ 4 ≤ bytes.length by omega]
    · simp [heq, hload heq, show ¬ 4 ≤ bytes.length by omega]
    · simp [hgt.ne', hgt.le, show 4 ≤ bytes.length by omega, hword (by omega)]
  by_cases h1 : off = 1
  · subst h1
    simp only [committed, written, hlength]
    rcases Nat.lt_trichotomy (bytes.length + 1) 4 with hlt | heq | hgt
    · simp [hlt.ne, hlt.not_ge, show ¬ 4 ≤ bytes.length by omega]
    · simp [heq, hload heq, show ¬ 4 ≤ bytes.length by omega]
    · simp [hgt.ne', hgt.le, show 4 ≤ bytes.length by omega, hword (by omega)]
  by_cases h3 : off = 3
  · subst h3
    simp only [committed, written, hlength]
    rcases Nat.eq_zero_or_pos bytes.length with hz | hp
    · simp [hz, hfirst]
    · simp [hp.ne', show 1 ≤ bytes.length from hp, List.getElem_append_left hp, List.getElem?_eq_getElem hp]
  · rw [committed_other h0 h1 h3, written_other h0 h1 h3, written_other h0 h1 h3]

end Sys2Proof.Machine
end

section
/-! SUPPORT. Proofs for whole bus transactions (R66, R67, R96, R100, R186) and for the reads of `GET_COMMAND` (R79,
R182). -/

namespace Sys2Proof.Machine

/-! ### Whole writes -/

theorem written_append (off : Addr) {bytes : List Byte} (b : Byte) (r : RegisterFile) (h : 4 ≤ bytes.length) :
    written off (bytes ++ [b]) r = written off bytes r := by
  have hlength : (bytes ++ [b]).length = bytes.length + 1 := by simp
  have h5 : 4 ≤ bytes.length + 1 := by omega
  have h1 : 1 ≤ bytes.length := by omega
  simp only [written, hlength, firstWord_append [b] h, getD_append_left bytes [b] h1, h, h1, h5,
    Nat.le_add_left, and_true]

/-- The address phase begins a write with no byte. -/
theorem writing_start {s : State} {off : Addr} (hc : s.cfg.BusOk) (hoff : off &&& s.cfg.busMask = off) :
    Writing s off [] (latchAddress (s.cfg.busBase ||| off) .write s) where
  frame := latchAddress_frame ..
  busError := rfl
  latchedAddress := registerOffset_base_or hc hoff
  direction := rfl
  size := rfl
  stored := rfl
  regs := (written_nil ..).symm
  trace := ⟨[.addressAck], rfl, rfl⟩

/-- A byte within the capacity is stored and perhaps committed; one past it is dropped; both are acknowledged. -/
theorem Writing.byte {s u : State} {off : Addr} {bytes : List Byte} (h : Writing s off bytes u) (b : Byte) :
    Writing s off (bytes ++ [b]) (byteReadyWr b u) := by
  have hframe := h.frame.trans (byteReadyWr_frame b u)
  obtain ⟨shown, htrace, hcount⟩ := h.trace
  have hsize := h.size
  rcases Nat.lt_or_ge bytes.length 20 with hlt | hge
  · have hlen : u.scr.size = bytes.length := by omega
    have hstored := h.stored
    rw [List.take_of_length_le hlt.le] at hstored
    have hvalid := u.scr.append_valid b (by rw [hlen]; exact hlt)
    rw [hstored, Scratch.append_buffer, Scratch.append_size, hlen] at hvalid
    have htake : (bytes ++ [b]).take 20 = bytes ++ [b] := List.take_of_length_le (by simp; omega)
    rw [byteReadyWr_stores b h.busError (by omega)] at hframe ⊢
    refine ⟨hframe, h.busError, h.latchedAddress, h.direction, ?_, ?_, ?_, shown ++ [.ack], ?_, ?_⟩
    · simp only [Scratch.append_size, List.length_append, List.length_singleton]; omega
    · rw [htake, Scratch.append_buffer, Scratch.append_size, hlen, hvalid]
    · rw [h.latchedAddress, h.regs, hlen, committed_written s.regs (by rw [hvalid, htake])]
    · rw [htrace, List.append_assoc]
    · simp [hcount]
  · have hfull : u.scr.size = 20 := by omega
    rw [byteReadyWr_full b h.busError hfull.ge] at hframe ⊢
    refine ⟨hframe, h.busError, h.latchedAddress, h.direction, ?_, ?_, ?_,
      shown ++ [.condition .overwrite, .ack], ?_, ?_⟩
    · simp only [hfull, List.length_append, List.length_singleton]; omega
    · rw [h.stored, List.take_append_of_le_length hge]
    · rw [h.regs, written_append off b s.regs (by omega)]
    · rw [htrace, List.append_assoc]
    · simp [hcount]

theorem Writing.run {s u : State} {off : Addr} {bytes : List Byte} (h : Writing s off bytes u) (more : List Byte) :
    ∃ v, runOps (more.map .byteReadyWr) u = .next v ∧ Writing s off (bytes ++ more) v := by
  induction more generalizing u bytes with
  | nil => exact ⟨u, rfl, by rwa [List.append_nil]⟩
  | cons b more ih =>
    obtain ⟨v, hrun, hv⟩ := ih (h.byte b)
    exact ⟨v, hrun, by rwa [List.append_assoc] at hv⟩

/-- A bus write: the bytes after the address phase, then `STOP`. -/
theorem runOps_busWrite {s : State} {off : Addr} (hc : s.cfg.BusOk) (hoff : off &&& s.cfg.busMask = off)
    (bytes : List Byte) : ∃ u, Writing s off bytes u ∧ runOps (busWrite s.cfg off bytes) s = .next (stop u) := by
  obtain ⟨u, hrun, hu⟩ := (writing_start hc hoff).run bytes
  have haddr : exec (.addrMatch (s.cfg.busBase ||| off) .write) s =
      .next (latchAddress (s.cfg.busBase ||| off) .write s) :=
    execAddrMatch_matched .write (addressMatched_base_or hc hoff)
  refine ⟨u, hu, ?_⟩
  rw [busWrite, List.append_assoc, List.singleton_append, runOps_cons, haddr, andThen_next, runOps_append, hrun,
    andThen_next]
  rfl

/-- The acknowledges of a whole write. -/
theorem Writing.stop_acks {s u : State} {off : Addr} {bytes : List Byte} (h : Writing s off bytes u) :
    ((stop u).trace.drop s.trace.length).count .ack = bytes.length := by
  obtain ⟨shown, htrace, hcount⟩ := h.trace
  rw [stop_trace, htrace, List.drop_left, hcount]

theorem Writing.stop_of_ne_four {s u : State} {off : Addr} {bytes : List Byte} (h : Writing s off bytes u)
    (hoff : off ≠ 4) : stop u = u :=
  Machine.stop_of_ne_four (h.latchedAddress ▸ hoff)

theorem zeroPadded_toList {buf : Vector Byte 20} {bytes : List Byte}
    (h : buf.toList.take (min 20 bytes.length) = bytes.take 20) :
    (zeroPadded buf (min 20 bytes.length)).toList = bytes.take 20 ++ List.replicate (20 - bytes.length) 0 := by
  have hlen : (bytes.take 20).length = min 20 bytes.length := List.length_take
  refine List.ext_getElem (by simp; omega) fun i hi _ => ?_
  have h20 : i < 20 := by simpa using hi
  rw [Vector.getElem_toList, zeroPadded_getElem _ _ _ h20]
  split_ifs with hlt
  · have hi' : i < bytes.length := by omega
    rw [List.getElem_append_left (hlen ▸ hlt), buffer_getElem_of_stored h h20 hlt, List.getElem_take,
      List.getD_eq_getElem _ _ hi']
  · rw [List.getElem_append_right (by omega), List.getElem_replicate]

/-- Offsets up to 4 are reachable on every well-formed bus address (R8). -/
theorem and_busMask_of_le_four {c : Config} (hc : c.BusOk) {off : Addr} (h : off = 0 ∨ off = 1 ∨ off = 3 ∨ off = 4) :
    off &&& c.busMask = off := by
  refine and_busMask_of_and_seven hc ?_
  rcases h with rfl | rfl | rfl | rfl <;> decide

/-- Settles O38: the bytes, then the commit of `STOP` at offset 4. -/
theorem longWritesCommitOnce : Obligations.LongWritesCommitOnce := by
  intro s off bytes hc hlong
  have hoff : off = 0 ∨ off = 1 ∨ off = 3 ∨ off = 4 := by tauto
  obtain ⟨u, hu, hrun⟩ := runOps_busWrite hc (and_busMask_of_le_four hc hoff) bytes
  have hregs := hu.regs
  refine ⟨stop u, hrun, by rw [stop_scr, hu.size], by rw [stop_scr, ← hu.size, hu.stored], hu.stop_acks, fun h => ?_,
    fun h => ?_, fun h => ?_, fun h => ?_⟩
  · subst h
    have hlen : 4 ≤ bytes.length := by simpa using hlong
    rw [hu.stop_of_ne_four (by decide), hregs, written, if_pos ⟨rfl, hlen⟩]
    rfl
  · subst h
    have hlen : 4 ≤ bytes.length := by simpa using hlong
    rw [hu.stop_of_ne_four (by decide), hregs, written, if_neg (by simp), if_pos ⟨rfl, hlen⟩]
    rfl
  · subst h
    have hlen : 1 ≤ bytes.length := by simpa using hlong
    rw [hu.stop_of_ne_four (by decide), hregs, written, if_neg (by simp), if_neg (by simp), if_pos ⟨rfl, hlen⟩]
  · subst h
    rw [written_other (by decide) (by decide) (by decide)] at hregs
    rw [stop_eq, if_pos ⟨hu.busError, hu.direction, hu.latchedAddress⟩, hu.size]
    refine ⟨by rw [← hregs], zeroPadded_toList ?_⟩
    rw [← hu.size, hu.stored]

/-! ### Whole reads -/

/-- Bytes fetched within the reply are those of the buffer, in order. -/
theorem runOps_byteReadyRd_pops (n : Nat) {u : State} (he : u.busError = false) (hn : u.scr.offset + n ≤ u.scr.size)
    (hcap : u.scr.size ≤ 20) :
    runOps (List.replicate n .byteReadyRd) u = .next
      { u with scr := { u.scr with offset := u.scr.offset + n }
               trace := u.trace ++ ((u.scr.buffer.toList.drop u.scr.offset).take n).map .data } := by
  induction n generalizing u with
  | zero => simp
  | succ n ih =>
    have h20 : u.scr.offset < 20 := by omega
    have hdrop : u.scr.buffer.toList.drop u.scr.offset =
        u.scr.buffer.getD u.scr.offset 0 :: u.scr.buffer.toList.drop (u.scr.offset + 1) := by
      rw [List.drop_eq_getElem_cons (by simpa using h20), Vector.getElem_toList, getD_eq_getElem _ _ h20]
    have hfirst : exec .byteReadyRd u = .next _ := congrArg Host.Outcome.next (byteReadyRd_pops he (by omega))
    rw [List.replicate_succ, runOps_cons, hfirst, andThen_next, ih (u := (u.withScr u.scr.advance).emit _) he (by simp; omega) hcap, hdrop]
    simp [State.emit, State.withScr, Scratch.advance, Nat.add_assoc, Nat.add_comm 1]

/-- Bytes fetched past the reply are sentinels. -/
theorem runOps_byteReadyRd_past (n : Nat) {u : State} (he : u.busError = false) (h : u.scr.size ≤ u.scr.offset) :
    runOps (List.replicate n .byteReadyRd) u = .next
      { u with trace := u.trace ++ (List.replicate n [Output.condition .overread, .data 0xFF]).flatten } := by
  induction n generalizing u with
  | zero => simp
  | succ n ih =>
    have hfirst : exec .byteReadyRd u = .next _ := congrArg Host.Outcome.next (byteReadyRd_past he h)
    rw [List.replicate_succ, runOps_cons, hfirst, andThen_next, ih (u := { u with trace := u.trace ++ [.condition .overread, .data 0xFF] }) he h]
    simp [List.replicate_succ]

theorem stop_of_read {s : State} (h : s.scr.direction = .read) : stop s = s := by
  rw [stop_eq, if_neg (by simp [h])]

/-- A bus read: the address phase, the bytes, and a `STOP` that commits nothing. -/
theorem runOps_busRead {s v : State} {off : Addr} {n : Nat} (hc : s.cfg.BusOk) (hoff : off &&& s.cfg.busMask = off)
    (hbytes : runOps (List.replicate n .byteReadyRd) (addrMatch (s.cfg.busBase ||| off) .read s) = .next v)
    (hv : v.scr.direction = .read) : runOps (busRead s.cfg off n) s = .next v := by
  have haddr : exec (.addrMatch (s.cfg.busBase ||| off) .read) s = .next (addrMatch (s.cfg.busBase ||| off) .read s) :=
    execAddrMatch_matched .read (addressMatched_base_or hc hoff)
  have hstop : exec .stop v = .next v := congrArg Host.Outcome.next (stop_of_read hv)
  rw [busRead, List.append_assoc, List.singleton_append, runOps_cons, haddr, andThen_next, runOps_append, hbytes,
    andThen_next, runOps_cons, hstop, andThen_next, runOps_nil]

/-- A read of four bytes of a prepared reply: the word, most significant byte first. -/
theorem runOps_busRead_word {s : State} {off : Addr} {w : Word} {r : RegisterFile} (hc : s.cfg.BusOk)
    (hoff : off &&& s.cfg.busMask = off)
    (hreply : addrMatch (s.cfg.busBase ||| off) .read s =
      ((latchAddress (s.cfg.busBase ||| off) .read s).withScr
        ((latchAddress (s.cfg.busBase ||| off) .read s).scr.loadReply w)).withRegs r) :
    ∃ u, runOps (busRead s.cfg off 4) s = .next u ∧ u.trace = s.trace ++ .addressAck :: (be32 w).map .data ∧
      u.regs = r ∧ u.cfg = s.cfg := by
  have hpops := runOps_byteReadyRd_pops 4
    (u := ((latchAddress (s.cfg.busBase ||| off) .read s).withScr
      ((latchAddress (s.cfg.busBase ||| off) .read s).scr.loadReply w)).withRegs r) rfl (by simp [latchAddress])
    (by simp)
  rw [← hreply] at hpops
  refine ⟨_, runOps_busRead hc hoff hpops ?_, ?_, ?_, (addrMatch_frame ..).cfg⟩
  · simp [hreply, latchAddress]
  · simp [hreply, latchAddress, storeBe32_toList, be32]
  · simp [hreply]

theorem addrMatch_read_value {s : State} (hc : s.cfg.BusOk) :
    addrMatch (s.cfg.busBase ||| 0) .read s =
      ((latchAddress (s.cfg.busBase ||| 0) .read s).withScr
        ((latchAddress (s.cfg.busBase ||| 0) .read s).scr.loadReply s.regs.value)).withRegs
          { s.regs with value := 0 } := by
  have hoff : (s.cfg.busBase ||| 0) &&& s.cfg.busMask = 0 :=
    registerOffset_base_or hc (and_busMask_of_le_four hc (.inl rfl))
  rw [addrMatch_read_eq, if_pos hoff]
  simp [rdValue, latchAddress]

theorem addrMatch_read_clickCount {s : State} (hc : s.cfg.BusOk) :
    addrMatch (s.cfg.busBase ||| 1) .read s =
      ((latchAddress (s.cfg.busBase ||| 1) .read s).withScr
        ((latchAddress (s.cfg.busBase ||| 1) .read s).scr.loadReply s.regs.clickCount)).withRegs
          { s.regs with clickCount := 0 } := by
  have hoff : (s.cfg.busBase ||| 1) &&& s.cfg.busMask = 1 :=
    registerOffset_base_or hc (and_busMask_of_le_four hc (.inr (.inl rfl)))
  have hne : (s.cfg.busBase ||| 1) &&& s.cfg.busMask ≠ 0 := by rw [hoff]; decide
  rw [addrMatch_read_eq, if_neg hne, if_pos hoff]
  simp [rdClick, latchAddress]

theorem busRead_value {s : State} (hc : s.cfg.BusOk) :
    ∃ u, runOps (busRead s.cfg 0 4) s = .next u ∧ u.trace = s.trace ++ .addressAck :: (be32 s.regs.value).map .data ∧
      u.regs = { s.regs with value := 0 } ∧ u.cfg = s.cfg :=
  runOps_busRead_word hc (and_busMask_of_le_four hc (.inl rfl)) (addrMatch_read_value hc)

theorem busRead_clickCount {s : State} (hc : s.cfg.BusOk) :
    ∃ u, runOps (busRead s.cfg 1 4) s = .next u ∧
      u.trace = s.trace ++ .addressAck :: (be32 s.regs.clickCount).map .data ∧
      u.regs = { s.regs with clickCount := 0 } ∧ u.cfg = s.cfg :=
  runOps_busRead_word hc (and_busMask_of_le_four hc (.inr (.inl rfl))) (addrMatch_read_clickCount hc)

theorem firstWord_be32 (v : Word) : firstWord (be32 v) = v := fromBe_be32 v

theorem be32_zero_map : (be32 0).map Output.data = List.replicate 4 (.data 0) := by decide

/-- Settles O36: the write, the read that clears, and the read of the cleared register. -/
theorem writtenValueIsReadBackOnce : Obligations.WrittenValueIsReadBackOnce := by
  intro s v hc
  constructor
  · obtain ⟨t, ht, hwrite⟩ := runOps_busWrite hc (and_busMask_of_le_four hc (.inl rfl)) (be32 v)
    rw [ht.stop_of_ne_four (by decide)] at hwrite
    have htregs : t.regs = { s.regs with value := v } := by
      rw [ht.regs, written, if_pos ⟨rfl, Nat.le_refl 4⟩, firstWord_be32]
    obtain ⟨u, hread, hutrace, huregs, hucfg⟩ := busRead_value (s := t) (ht.frame.cfg ▸ hc)
    obtain ⟨w, hagain, hwtrace, hwregs, -⟩ := busRead_value (s := u) (hucfg ▸ ht.frame.cfg ▸ hc)
    rw [hucfg, ht.frame.cfg] at hagain
    rw [ht.frame.cfg] at hread
    rw [htregs] at hutrace huregs
    rw [huregs, be32_zero_map] at hwtrace
    exact ⟨t, u, w, hwrite, htregs, hread, hutrace, huregs, hagain, hwtrace, by rw [hwregs, huregs]⟩
  · obtain ⟨t, ht, hwrite⟩ := runOps_busWrite hc (and_busMask_of_le_four hc (.inr (.inl rfl))) (be32 v)
    rw [ht.stop_of_ne_four (by decide)] at hwrite
    have htregs : t.regs = { s.regs with clickCount := v } := by
      rw [ht.regs, written, if_neg (by simp), if_pos ⟨rfl, Nat.le_refl 4⟩, firstWord_be32]
    obtain ⟨u, hread, hutrace, huregs, hucfg⟩ := busRead_clickCount (s := t) (ht.frame.cfg ▸ hc)
    obtain ⟨w, hagain, hwtrace, hwregs, -⟩ := busRead_clickCount (s := u) (hucfg ▸ ht.frame.cfg ▸ hc)
    rw [hucfg, ht.frame.cfg] at hagain
    rw [ht.frame.cfg] at hread
    rw [htregs] at hutrace huregs
    rw [huregs, be32_zero_map] at hwtrace
    exact ⟨t, u, w, hwrite, htregs, hread, hutrace, huregs, hagain, hwtrace, by rw [hwregs, huregs]⟩

/-! ### GET_COMMAND (R79, R182) -/

/-- Settles O40: the undisturbed call. -/
theorem getCommandReadsTheScratch : Obligations.GetCommandReadsTheScratch := fun s h => by
  change execGetCommand s = _
  rw [execGetCommand_undisturbed h, getCommand_undisturbed h]
  rfl

/-- Settles O39: an empty reply, and a write that commits at no width. -/
theorem unusedSelectorsHaveNoEffect : Obligations.UnusedSelectorsHaveNoEffect := by
  intro s off hc hoff
  have hlatched : (s.cfg.busBase ||| off) &&& s.cfg.busMask = off := registerOffset_base_or hc hoff
  refine ⟨fun h0 h1 n => ?_, fun h0 h1 h3 h4 bytes => ?_⟩
  · have hreply : addrMatch (s.cfg.busBase ||| off) .read s = latchAddress (s.cfg.busBase ||| off) .read s := by
      rw [addrMatch_read_eq, hlatched, if_neg h0, if_neg h1]
    have hpast := runOps_byteReadyRd_past n (u := latchAddress (s.cfg.busBase ||| off) .read s) rfl (Nat.le_refl 0)
    rw [← hreply] at hpast
    refine ⟨_, runOps_busRead hc hoff hpast ?_, ?_, ?_, ?_, ?_⟩ <;> simp [hreply, latchAddress]
  · obtain ⟨u, hu, hrun⟩ := runOps_busWrite hc hoff bytes
    have hacks := hu.stop_acks
    rw [hu.stop_of_ne_four h4] at hrun hacks
    refine ⟨u, hrun, by rw [hu.regs, written_other h0 h1 h3], hu.busError, hu.latchedAddress, hu.stored, hacks,
      fun hs => ?_⟩
    have hquiet : u.undisturbed := by
      have hrace : u.race = s.race := by rw [State.race, hu.frame.races, State.race]
      exact hrace.trans hs
    rw [getCommandReadsTheScratch u hquiet, hu.latchedAddress, hu.stored]

/-- The state after the interrupts of some first part of a race. -/
def stateAfter (s : State) (items : List RaceItem) : State :=
  (interruptsOf items).foldl (fun t e => runInterrupt e t) s

/-- Something the scratch was at some moment of a race. -/
def SeenIn (s : State) (items : List RaceItem) (p : Scratch → Prop) : Prop :=
  ∃ pre, pre <+: items ∧ p (stateAfter s pre).scr

theorem SeenIn.extend {s : State} {items : List RaceItem} {p : Scratch → Prop} (h : SeenIn s items p) (x : RaceItem) :
    SeenIn s (items ++ [x]) p := by
  obtain ⟨pre, hpre, hp⟩ := h
  exact ⟨pre, hpre.trans (List.prefix_append items [x]), hp⟩

/-- Every read made so far is of the scratch at some moment. -/
structure ReadsSeen (s : State) (items : List RaceItem) (r : Reads) : Prop where
  addr : ∀ a, r.addr = some a → SeenIn s items (·.latchedAddress = a)
  size : ∀ n, r.size = some n → SeenIn s items (·.size = n)
  bytes : ∀ (j : Nat) (h : j < 20) (b : Byte), r.bytes[j] = some b → SeenIn s items (fun c => c.buffer[j] = b)

theorem ReadsSeen.extend {s : State} {items : List RaceItem} {r : Reads} (h : ReadsSeen s items r) (x : RaceItem) :
    ReadsSeen s (items ++ [x]) r where
  addr a ha := (h.addr a ha).extend x
  size n hn := (h.size n hn).extend x
  bytes j hj b hb := (h.bytes j hj b hb).extend x

/-- A read of a part that is not yet read is a read now. -/
theorem seenIn_now {s : State} {items : List RaceItem} {p : Scratch → Prop} (h : p (stateAfter s items).scr)
    (x : RaceItem) : SeenIn s (items ++ [x]) p :=
  ⟨items, List.prefix_append items [x], h⟩

theorem raceStep_readsSeen {s : State} {items : List RaceItem} {r : Reads} (h : ReadsSeen s items r) (x : RaceItem) :
    ReadsSeen s (items ++ [x]) (raceStep (stateAfter s items, r) x).2 := by
  have hold := h.extend x
  cases x with
  | interrupt e => exact hold
  | readAddr =>
    refine ⟨fun a ha => ?_, hold.size, hold.bytes⟩
    cases hread : r.addr with
    | some a' =>
      refine hold.addr a ?_
      simpa [raceStep, Reads.readAddr, hread] using ha
    | none =>
      refine seenIn_now ?_ _
      simpa [raceStep, Reads.readAddr, hread] using ha
  | readSize =>
    refine ⟨hold.addr, fun n hn => ?_, hold.bytes⟩
    cases hread : r.size with
    | some n' =>
      refine hold.size n ?_
      simpa [raceStep, Reads.readSize, hread] using hn
    | none =>
      refine seenIn_now ?_ _
      simpa [raceStep, Reads.readSize, hread] using hn
  | readByte i =>
    refine ⟨hold.addr, hold.size, fun j hj b hb => ?_⟩
    simp only [raceStep, Reads.readByte, Vector.getElem_mapIdx] at hb
    split_ifs at hb with hji
    · subst hji
      cases hread : r.bytes[j] with
      | some b' =>
        refine hold.bytes j hj b ?_
        simpa [hread] using hb
      | none =>
        rw [hread] at hb
        exact seenIn_now ((getD_eq_getElem _ _ hj).symm.trans (Option.some.inj hb)) _
    · exact hold.bytes j hj b hb

/-- The reads of a whole race, with its state. -/
theorem runRace_readsSeen (items : List RaceItem) (s : State) :
    (runRace items s).1 = stateAfter s items ∧ ReadsSeen s items (runRace items s).2 := by
  refine ⟨foldl_raceStep_fst items s _, ?_⟩
  induction items using List.reverseRecOn with
  | nil => exact ⟨by simp [runRace, Reads.start], by simp [runRace, Reads.start], by simp [runRace, Reads.start]⟩
  | append_singleton items x ih =>
    have hstep := raceStep_readsSeen ih x
    have hstate : stateAfter s items = (runRace items s).1 := (foldl_raceStep_fst items s _).symm
    rw [hstate] at hstep
    rw [runRace, List.foldl_append]
    exact hstep

/-- The address of a call is one the scratch held. -/
theorem ReadsSeen.resultAddr {s : State} {items : List RaceItem} {r : Reads} (h : ReadsSeen s items r) :
    SeenIn s items (·.latchedAddress = r.resultAddr (stateAfter s items).scr) := by
  unfold Reads.resultAddr
  cases hread : r.addr with
  | some a => exact h.addr a hread
  | none => exact ⟨items, List.prefix_rfl, rfl⟩

/-- The length of a call is a size the scratch held, at most 20. -/
theorem ReadsSeen.resultBytes_length {s : State} {items : List RaceItem} {r : Reads} (h : ReadsSeen s items r) :
    SeenIn s items (fun c => (r.resultBytes (stateAfter s items).scr).length = min c.size 20) := by
  have hsize : SeenIn s items (fun c => c.size = r.size.getD (stateAfter s items).scr.size) := by
    cases hread : r.size with
    | some n => exact h.size n hread
    | none => exact ⟨items, List.prefix_rfl, rfl⟩
  obtain ⟨pre, hpre, hp⟩ := hsize
  exact ⟨pre, hpre, by dsimp only; rw [hp, Reads.resultBytes, List.length_take, Vector.length_toList]⟩

/-- Each byte of a call is one the buffer held at its place. -/
theorem ReadsSeen.resultBytes_getElem {s : State} {items : List RaceItem} {r : Reads} (h : ReadsSeen s items r)
    {j : Nat} {b : Byte} (hb : (r.resultBytes (stateAfter s items).scr)[j]? = some b) :
    SeenIn s items (fun c => c.buffer[j]? = some b) := by
  obtain ⟨hlen, hget⟩ := List.getElem?_eq_some_iff.1 hb
  have hj : j < 20 := by
    rw [Reads.resultBytes, List.length_take, Vector.length_toList] at hlen
    omega
  simp only [Reads.resultBytes, List.getElem_take, Vector.getElem_toList, Vector.getElem_mapIdx] at hget
  have hseen : SeenIn s items (fun c => c.buffer[j] = b) := by
    cases hread : r.bytes[j] with
    | some b' =>
      refine h.bytes j hj b ?_
      rw [hread] at hget ⊢
      exact congrArg some hget
    | none =>
      rw [hread] at hget
      exact ⟨items, List.prefix_rfl, (getD_eq_getElem _ _ hj).symm.trans hget⟩
  obtain ⟨pre, hpre, hp⟩ := hseen
  exact ⟨pre, hpre, by dsimp only; rw [Vector.getElem?_eq_getElem hj, hp]⟩

/-- Settles O41: the reads are of states that first parts of the race leave. -/
theorem getCommandReadsAreSingleReads : Obligations.GetCommandReadsAreSingleReads := by
  intro s hrange
  obtain ⟨hstate, hreads⟩ := runRace_readsSeen s.race (s.withRaces s.races.tail)
  have hrun (pre : List RaceItem) (hpre : pre <+: s.race) :
      runOps ((interruptsOf pre).map Interrupt.toInstr) (s.withRaces s.races.tail) =
        .next (stateAfter (s.withRaces s.races.tail) pre) := by
    refine runOps_interrupts _ _ fun e he => ?_
    cases e with
    | addrMatch a d => exact hrange a d (hpre.subset (mem_interruptsOf.1 he))
    | _ => rfl
  have hmoment {p : Scratch → Prop} (h : SeenIn (s.withRaces s.races.tail) s.race p) :
      ∃ (pre : List RaceItem) (m : State), pre <+: s.race ∧
        runOps ((interruptsOf pre).map Interrupt.toInstr) { s with races := s.races.tail } = .next m ∧ p m.scr := by
    obtain ⟨pre, hpre, hp⟩ := h
    exact ⟨pre, _, hpre, hrun pre hpre, hp⟩
  refine ⟨stateAfter (s.withRaces s.races.tail) s.race, (commandRead s).1, (commandRead s).2,
    hrun s.race List.prefix_rfl, ?_, ?_, ?_, fun j b hb => ?_⟩
  · change execGetCommand s = _
    rw [execGetCommand_inRange hrange, getCommand, raced, hstate]
    rfl
  · obtain ⟨pre, m, hpre, hm, haddr⟩ := hmoment hreads.resultAddr
    exact ⟨pre, m, hpre, hm, by rw [haddr, commandRead, raced, raceResult, hstate]⟩
  · obtain ⟨pre, m, hpre, hm, hlen⟩ := hmoment hreads.resultBytes_length
    exact ⟨pre, m, hpre, hm, by rw [← hlen, commandRead, raced, raceResult, hstate]⟩
  · rw [commandRead, raced, raceResult, hstate] at hb
    exact hmoment (hreads.resultBytes_getElem hb)

/-- A finished write of `00 00 01 00` to `value`, and a race in which a transaction to offset 1 with the byte `AA` comes
between the read of the address and the other reads (R79). -/
def tornStart : State :=
  { State.reset with
    scr := { State.reset.scr with buffer := storeBe32 State.reset.scr.buffer 256, size := 4 }
    races := [[.readAddr, .interrupt (.addrMatch 0x11 .write), .interrupt (.byteReadyWr 0xAA)]] }

theorem exec_getCommand_tornStart : exec .getCommand tornStart = .next (getCommand tornStart) := by
  have hmatched : unmatchedIn tornStart.cfg tornStart.race = none := by decide
  change execGetCommand tornStart = _
  rw [execGetCommand, hmatched]

/-- Settles O42: the race of `tornStart`. -/
theorem tornCommandIsPossible : Obligations.TornCommandIsPossible :=
  ⟨tornStart, getCommand tornStart, by decide, by decide, exec_getCommand_tornStart, by decide, by decide⟩

end Sys2Proof.Machine
end

section
/-! SUPPORT. Proofs for spec/41_display_multiplexer.md section 4: how long an LED is lit in a frame (R146, R148) and the
first slot after reset (R150). -/

namespace Sys2Proof.Machine

/-! ### Ticks one after another -/

@[simp] theorem afterTick_eq (s : State) : afterTick s = dispTick s := rfl

theorem afterTicks_add (m n : Nat) (s : State) : afterTicks (m + n) s = afterTicks n (afterTicks m s) := by
  induction m generalizing s with
  | zero => rw [Nat.zero_add]; rfl
  | succ m ih => rw [Nat.add_right_comm]; exact ih _

theorem litTicks_add (pos m n : Nat) (s : State) :
    litTicks pos (m + n) s = litTicks pos m s + litTicks pos n (afterTicks m s) := by
  induction m generalizing s with
  | zero => rw [Nat.zero_add, litTicks, Nat.zero_add]; rfl
  | succ m ih => rw [Nat.add_right_comm, litTicks, litTicks, ih, Nat.add_assoc]; rfl

/-- A sum over the numbers below `n`. -/
def sumBelow (n : Nat) (f : Nat → Nat) : Nat := ((List.range n).map f).sum

theorem sumBelow_succ (n : Nat) (f : Nat → Nat) : sumBelow (n + 1) f = sumBelow n f + f n := by
  simp [sumBelow, List.range_succ]

theorem sumBelow_congr {n : Nat} {f g : Nat → Nat} (h : ∀ k, k < n → f k = g k) : sumBelow n f = sumBelow n g := by
  rw [sumBelow, List.map_congr_left fun k hk => h k (List.mem_range.1 hk), sumBelow]

theorem sumBelow_const (n a : Nat) : sumBelow n (fun _ => a) = n * a := by
  simp [sumBelow]

theorem sumBelow_mul (n a : Nat) (f : Nat → Nat) : sumBelow n (fun k => a * f k) = a * sumBelow n f := by
  simp [sumBelow, List.sum_map_mul_left]

/-- A sum with one term that is not 0. -/
theorem sumBelow_single {n a : Nat} (f : Nat → Nat) (h : a < n) : sumBelow n (fun k => if k = a then f k else 0) = f a := by
  have hprefix (m : Nat) (hm : m ≤ n) : sumBelow m (fun k => if k = a then f k else 0) = if a < m then f a else 0 := by
    induction m with
    | zero => rfl
    | succ m ih =>
      rw [sumBelow_succ, ih (by omega)]
      rcases Nat.lt_trichotomy a m with hlt | rfl | hgt
      · simp [hlt, hlt.ne', Nat.lt_succ_of_lt hlt]
      · simp
      · simp [hgt.ne, show ¬ a < m by omega, show ¬ a < m + 1 by omega]
  rw [hprefix n le_rfl, if_pos h]

/-- Periods one after another: the `j`-th one is `len j` ticks long, leads from `At j` to `At (j + 1)`, and the LED is
lit in `lit j` of its ticks. -/
theorem periods {pos n : Nat} {len lit : Nat → Nat} {At : Nat → State → Prop}
    (hstep : ∀ j, j < n → ∀ s, At j s → At (j + 1) (afterTicks (len j) s) ∧ litTicks pos (len j) s = lit j)
    {s : State} (hs : At 0 s) : At n (afterTicks (sumBelow n len) s) ∧ litTicks pos (sumBelow n len) s = sumBelow n lit := by
  induction n with
  | zero => exact ⟨hs, rfl⟩
  | succ n ih =>
    obtain ⟨hat, hlit⟩ := ih fun j hj => hstep j (Nat.lt_succ_of_lt hj)
    obtain ⟨hat', hlit'⟩ := hstep n (Nat.lt_succ_self n) _ hat
    rw [sumBelow_succ, sumBelow_succ, afterTicks_add, litTicks_add, hlit, hlit']
    exact ⟨hat', rfl⟩

/-! ### A slot (R143, R146) -/

/-- Slot `(ph, b)` has been activated from the tables of `s₀` and has been current for `k` ticks. -/
structure InSlot (s₀ : State) (ph b k : Nat) (s : State) : Prop where
  cfg : s.cfg = s₀.cfg
  dirbits : s.disp.dirbits = s₀.disp.dirbits
  scanPhase : s.disp.scanPhase = ph
  scanCycle : s.disp.scanCycle = b
  dwellCounter : s.disp.dwellCounter = k
  out : s.disp.out = onehot s₀.cfg.nPins ph
  dir : s.disp.dir = slotDir s₀.cfg s₀.disp.dirbits ph b

theorem InSlot.tick {s₀ s : State} {ph b k : Nat} (h : InSlot s₀ ph b k s) (hk : k + 1 < dwellOf s₀.cfg ph b) :
    InSlot s₀ ph b (k + 1) (dispTick s) := by
  rw [dispTick_of_lt (by rw [h.dwellCounter, h.cfg, h.scanPhase, h.scanCycle]; exact hk)]
  exact ⟨h.cfg, h.dirbits, h.scanPhase, h.scanCycle, congrArg (· + 1) h.dwellCounter, h.out, h.dir⟩

theorem InSlot.next {s₀ s : State} {ph b k : Nat} (h : InSlot s₀ ph b k s) (hk : dwellOf s₀.cfg ph b ≤ k + 1) :
    InSlot s₀ (nextSlot s₀.cfg ph b).1 (nextSlot s₀.cfg ph b).2 0 (dispTick s) := by
  rw [dispTick_of_dwell_reached (by rw [h.dwellCounter, h.cfg, h.scanPhase, h.scanCycle]; exact hk), scanTransition_eq,
    h.scanPhase, h.scanCycle]
  refine ⟨h.cfg, h.dirbits, ?_, ?_, rfl, ?_, ?_⟩ <;> simp only [h.cfg, h.dirbits]

/-- In a slot an LED is lit exactly if the slot's phase is its source and its bit in the slot's plane is set. -/
theorem InSlot.lit_iff {s₀ s : State} {ph b k pos : Nat} (hc : s₀.cfg.LedMapOk) (htables : s₀.disp.TablesFollow s₀.cfg)
    (hpos : pos < s₀.cfg.nLeds) (hb : b < s₀.cfg.nPlanes) (h : InSlot s₀ ph b k s) :
    s.lit pos = true ↔ ph = srcOf s₀.cfg pos ∧ (s₀.disp.bitplane.getD pos 0).getLsbD b = true := by
  have hsrc := srcOf_lt hc hpos
  have hsnk := snkOf_lt hc hpos
  have hne := srcOf_ne_snkOf hc hpos
  rw [State.lit, decide_eq_true_eq, pinAt_eq_H, pinAt_eq_L, h.cfg, h.out, h.dir, slotDir_getD, slotDir_getD, onehot_getD,
    onehot_getD, ← htables pos hpos b hb]
  constructor
  · rintro ⟨⟨-, hhigh⟩, hlow, -⟩
    simp only [Bool.and_eq_true, decide_eq_true_eq] at hhigh
    obtain ⟨-, hphase⟩ := hhigh
    refine ⟨hphase.symm, ?_⟩
    rw [hphase]
    simpa [hsnk, ← hphase, hne.symm] using hlow
  · rintro ⟨rfl, hbit⟩
    simp [hsrc, hsnk, hbit, hne.symm]

section Frame

variable {s₀ : State} {pos : Nat} (hc : s₀.cfg.Wf) (htables : s₀.disp.TablesFollow s₀.cfg) (hpos : pos < s₀.cfg.nLeds)
include hc htables hpos

/-- A slot from its activation to the next one. -/
theorem InSlot.dwell {s : State} {ph b : Nat} (hb : b < s₀.cfg.nPlanes) (h : InSlot s₀ ph b 0 s) :
    InSlot s₀ (nextSlot s₀.cfg ph b).1 (nextSlot s₀.cfg ph b).2 0 (afterTicks (dwellOf s₀.cfg ph b) s) ∧
    litTicks pos (dwellOf s₀.cfg ph b) s =
      if ph = srcOf s₀.cfg pos ∧ (s₀.disp.bitplane.getD pos 0).getLsbD b = true then dwellOf s₀.cfg ph b else 0 := by
  obtain ⟨-, hmap, hdwell, -⟩ := hc
  have hstep : ∀ k, k < dwellOf s₀.cfg ph b → ∀ u,
      (if k < dwellOf s₀.cfg ph b then InSlot s₀ ph b k u
        else InSlot s₀ (nextSlot s₀.cfg ph b).1 (nextSlot s₀.cfg ph b).2 0 u) →
      (if k + 1 < dwellOf s₀.cfg ph b then InSlot s₀ ph b (k + 1) (afterTicks 1 u)
        else InSlot s₀ (nextSlot s₀.cfg ph b).1 (nextSlot s₀.cfg ph b).2 0 (afterTicks 1 u)) ∧
      litTicks pos 1 u =
        if ph = srcOf s₀.cfg pos ∧ (s₀.disp.bitplane.getD pos 0).getLsbD b = true then 1 else 0 := by
    intro k hk u hu
    rw [if_pos hk] at hu
    refine ⟨?_, if_congr (hu.lit_iff hmap htables hpos hb) rfl rfl⟩
    split
    · exact hu.tick ‹_›
    · exact hu.next (by omega)
  have hperiods := periods (len := fun _ => 1)
    (At := fun k u => if k < dwellOf s₀.cfg ph b then InSlot s₀ ph b k u
      else InSlot s₀ (nextSlot s₀.cfg ph b).1 (nextSlot s₀.cfg ph b).2 0 u)
    hstep (by rw [if_pos (dwellOf_pos hdwell ph b)]; exact h)
  simp only [sumBelow_const, Nat.lt_irrefl, if_false, Nat.mul_one] at hperiods
  refine ⟨hperiods.1, hperiods.2.trans ?_⟩
  split <;> simp

/-- The slots of one plane, from phase 0 to the next plane's phase 0 (R144). -/
theorem InSlot.plane {s : State} {b : Nat} (hb : b < s₀.cfg.nPlanes) (h : InSlot s₀ 0 b 0 s) :
    InSlot s₀ 0 ((b + 1) % s₀.cfg.nPlanes) 0 (afterTicks (sumBelow s₀.cfg.nPins (dwellOf s₀.cfg · b)) s) ∧
    litTicks pos (sumBelow s₀.cfg.nPins (dwellOf s₀.cfg · b)) s =
      if (s₀.disp.bitplane.getD pos 0).getLsbD b = true then dwellOf s₀.cfg (srcOf s₀.cfg pos) b else 0 := by
  have hsrc := srcOf_lt hc.2.1 hpos
  have hstep : ∀ ph, ph < s₀.cfg.nPins → ∀ u,
      (if ph < s₀.cfg.nPins then InSlot s₀ ph b 0 u else InSlot s₀ 0 ((b + 1) % s₀.cfg.nPlanes) 0 u) →
      (if ph + 1 < s₀.cfg.nPins then InSlot s₀ (ph + 1) b 0 (afterTicks (dwellOf s₀.cfg ph b) u)
        else InSlot s₀ 0 ((b + 1) % s₀.cfg.nPlanes) 0 (afterTicks (dwellOf s₀.cfg ph b) u)) ∧
      litTicks pos (dwellOf s₀.cfg ph b) u = if ph = srcOf s₀.cfg pos then
        (if (s₀.disp.bitplane.getD pos 0).getLsbD b = true then dwellOf s₀.cfg ph b else 0) else 0 := by
    intro ph hph u hu
    rw [if_pos hph] at hu
    obtain ⟨hnext, hlit⟩ := hu.dwell hc htables hpos hb
    refine ⟨?_, hlit.trans (ite_and ..)⟩
    rw [nextSlot] at hnext
    split_ifs at hnext ⊢ <;> exact hnext
  have hperiods := periods
    (At := fun ph u => if ph < s₀.cfg.nPins then InSlot s₀ ph b 0 u else InSlot s₀ 0 ((b + 1) % s₀.cfg.nPlanes) 0 u)
    hstep (by rw [if_pos (Nat.zero_lt_of_lt hsrc)]; exact h)
  simp only [Nat.lt_irrefl, if_false] at hperiods
  refine ⟨hperiods.1, hperiods.2.trans ?_⟩
  exact sumBelow_single
    (fun ph => if (s₀.disp.bitplane.getD pos 0).getLsbD b = true then dwellOf s₀.cfg ph b else 0) hsrc

/-- A whole frame. -/
theorem litTicks_frame {s : State} (h : InSlot s₀ 0 0 0 s) :
    litTicks pos (frameLength s₀.cfg) s = dutyOf s₀.cfg pos (s₀.disp.bitplane.getD pos 0) := by
  have hplanes : 0 < s₀.cfg.nPlanes := hc.1.2.2.2.1
  have hstep : ∀ b, b < s₀.cfg.nPlanes → ∀ u, InSlot s₀ 0 (b % s₀.cfg.nPlanes) 0 u →
      InSlot s₀ 0 ((b + 1) % s₀.cfg.nPlanes) 0 (afterTicks (sumBelow s₀.cfg.nPins (dwellOf s₀.cfg · b)) u) ∧
      litTicks pos (sumBelow s₀.cfg.nPins (dwellOf s₀.cfg · b)) u =
        if (s₀.disp.bitplane.getD pos 0).getLsbD b = true then dwellOf s₀.cfg (srcOf s₀.cfg pos) b else 0 := by
    intro b hb u hu
    rw [Nat.mod_eq_of_lt hb] at hu
    exact hu.plane hc htables hpos hb
  exact (periods (At := fun b u => InSlot s₀ 0 (b % s₀.cfg.nPlanes) 0 u) hstep
    (by rw [Nat.mod_eq_of_lt hplanes]; exact h)).2

end Frame

/-! ### The default dwell (R8, R148) -/

theorem dwellOf_default {c : Config} (h : c.dwell = defaultDwell c.nPins c.nPlanes) {ph b : Nat} (hph : ph < c.nPins)
    (hb : b < c.nPlanes) : dwellOf c ph b = 2 ^ b := by
  have hrow : c.dwell.getD ph [] = (List.range c.nPlanes).map (2 ^ ·) := by
    rw [h]
    exact List.getD_replicate (h := hph) ..
  rw [dwellOf, hrow, range_map_getD, if_pos hb]

theorem sumBelow_two_pow (n : Nat) : sumBelow n (2 ^ ·) = 2 ^ n - 1 := by
  induction n with
  | zero => rfl
  | succ n ih =>
    have hpos := Nat.two_pow_pos n
    rw [sumBelow_succ, ih, Nat.pow_succ]
    omega

theorem frameLength_default {c : Config} (h : c.dwell = defaultDwell c.nPins c.nPlanes) :
    frameLength c = c.nPins * (2 ^ c.nPlanes - 1) := by
  have hplane (b : Nat) (hb : b < c.nPlanes) : sumBelow c.nPins (dwellOf c · b) = c.nPins * 2 ^ b := by
    rw [sumBelow_congr fun ph hph => dwellOf_default h hph hb, sumBelow_const]
  calc frameLength c = sumBelow c.nPlanes (fun b => sumBelow c.nPins (dwellOf c · b)) := rfl
    _ = sumBelow c.nPlanes (fun b => c.nPins * 2 ^ b) := sumBelow_congr hplane
    _ = c.nPins * (2 ^ c.nPlanes - 1) := by rw [sumBelow_mul, sumBelow_two_pow]

/-- A number is the sum of its binary digits. -/
theorem sumBelow_testBit (x n : Nat) : sumBelow n (fun b => if x.testBit b = true then 2 ^ b else 0) = x % 2 ^ n := by
  induction n with
  | zero => rw [Nat.pow_zero, Nat.mod_one]; rfl
  | succ n ih =>
    rw [sumBelow_succ, ih, Nat.mod_pow_succ, Nat.testBit_eq_decide_div_mod_eq]
    rcases Nat.mod_two_eq_zero_or_one (x / 2 ^ n) with h | h <;> simp [h]

theorem topBits_lt {n : Nat} (hn : n ≤ 8) (v : Byte) : (topBits n v).toNat < 2 ^ n := by
  rw [topBits_toNat, Nat.div_lt_iff_lt_mul (Nat.two_pow_pos _), ← Nat.pow_add, Nat.add_sub_cancel' hn]
  exact v.isLt

theorem dutyOf_default {c : Config} (hc : c.Wf) (h : c.dwell = defaultDwell c.nPins c.nPlanes) {pos : Nat}
    (hpos : pos < c.nLeds) (v : Byte) : dutyOf c pos (topBits c.nPlanes v) = v.toNat / 2 ^ (8 - c.nPlanes) := by
  obtain ⟨⟨-, -, -, -, hplanes, -⟩, hmap, -⟩ := hc
  have hterm (b : Nat) (hb : b < c.nPlanes) :
      (if (topBits c.nPlanes v).getLsbD b = true then dwellOf c (srcOf c pos) b else 0) =
        if (topBits c.nPlanes v).toNat.testBit b = true then 2 ^ b else 0 := by
    rw [dwellOf_default h (srcOf_lt hmap hpos) hb]
    rfl
  calc dutyOf c pos (topBits c.nPlanes v)
      = sumBelow c.nPlanes (fun b => if (topBits c.nPlanes v).toNat.testBit b = true then 2 ^ b else 0) :=
        sumBelow_congr hterm
    _ = v.toNat / 2 ^ (8 - c.nPlanes) := by
        rw [sumBelow_testBit, Nat.mod_eq_of_lt (topBits_lt hplanes v), topBits_toNat]

theorem bitplane_getD {c : Config} {d : Display} (hd : d.Shaped c) (h : d.PlanesFollow c) {pos : Nat}
    (hpos : pos < c.nLeds) : d.bitplane.getD pos 0 = topBits c.nPlanes (d.intensity.getD pos 0) := by
  have hlen : pos < d.intensity.length := hd.1 ▸ hpos
  have hmap : d.bitplane = d.intensity.map (topBits c.nPlanes) := h
  rw [hmap, List.getD_eq_getElem _ _ (by simpa using hlen), List.getElem_map, List.getD_eq_getElem _ _ hlen]

/-- Settles O21: the frame's duty, and the default dwell's powers of two. -/
theorem frameDutyIsTheTruncatedIntensity : Obligations.FrameDutyIsTheTruncatedIntensity := by
  intro s pos hc hdisp hstart hpos
  obtain ⟨hshaped, hplanes, htables, -⟩ := hdisp
  obtain ⟨hphase, hcycle, hcounter, hout, hdir⟩ := hstart
  have hframe := litTicks_frame hc htables hpos ⟨rfl, rfl, hphase, hcycle, hcounter, hout, hdir⟩
  refine ⟨hframe, fun hdefault => ⟨frameLength_default hdefault, hframe.trans ?_⟩⟩
  rw [bitplane_getD hshaped hplanes hpos]
  exact dutyOf_default hc hdefault hpos _

/-! ### After reset (R150) -/

theorem afterTicks_succ (n : Nat) (s : State) : afterTicks (n + 1) s = dispTick (afterTicks n s) :=
  afterTicks_add n 1 s

/-- The ticks of the first dwell only count. -/
theorem afterTicks_reset (c : Config) {n : Nat} (h : n < dwellOf c 0 0) :
    afterTicks n (State.resetWith c) = (State.resetWith c).withDisp { Display.reset c with dwellCounter := n } := by
  induction n with
  | zero => rfl
  | succ n ih =>
    rw [afterTicks_succ, ih (by omega)]
    exact dispTick_of_lt h

/-- Settles O22: the first dwell counts on dark pins, and its last tick goes from slot (0, 0) to slot (1, 0). -/
theorem firstSlotIsDark : Obligations.FirstSlotIsDark := by
  intro c hc
  obtain ⟨⟨hpins, -⟩, -, hdwell, -⟩ := hc
  obtain ⟨n, hn⟩ := Nat.exists_eq_succ_of_ne_zero (dwellOf_pos hdwell 0 0).ne'
  have hlast : afterTicks (dwellOf c 0 0) (State.resetWith c) =
      scanTransition ((State.resetWith c).withDisp { Display.reset c with dwellCounter := n }) := by
    rw [hn, Nat.succ_eq_add_one, afterTicks_succ, afterTicks_reset c (by omega)]
    exact dispTick_of_dwell_reached hn.le
  have hslot : nextSlot c 0 0 = (1, 0) := if_pos hpins
  have hone : 1 < c.nPins := hpins
  refine ⟨fun m hm => ?_, ?_, ?_, ?_⟩
  · rw [afterTicks_reset c hm]
    exact pinLevels_zeroBits _ _
  · rw [hlast, scanTransition_eq]
    exact congrArg Prod.fst hslot
  · rw [hlast, scanTransition_eq]
    exact congrArg Prod.snd hslot
  · rw [hlast, scanTransition_eq]
    change pinAt (slotDir c _ (nextSlot c 0 0).1 (nextSlot c 0 0).2) (onehot c.nPins (nextSlot c 0 0).1) 1 = .H
    rw [hslot, pinAt_eq_H, slotDir_getD, onehot_getD]
    simp [hone]

end Sys2Proof.Machine
end

section
/-! SUPPORT. What the sub-steps of a host tick do, in closed form: painting, the mode toggle, the two handlers, the command
(spec/43_host_controller.md R203 to R211), and the six orders taken together. -/

namespace Sys2Proof.Machine

/-! ### Painting -/

/-- The display after calls at positions of the table. -/
def Display.painted (c : Config) (calls : List (Int × Byte)) (d : Display) : Display :=
  calls.foldl (fun d q => d.setLed c q.1.toNat q.2) d

/-- All positions are of LEDs. -/
def InTable (n : Nat) (calls : List (Int × Byte)) : Prop := ∀ q ∈ calls, 0 ≤ q.1 ∧ q.1 < n

theorem paint_eq {calls : List (Int × Byte)} {s : State} (h : InTable s.cfg.nLeds calls) :
    paint calls s = .next (s.withDisp (s.disp.painted s.cfg calls)) := by
  induction calls generalizing s with
  | nil => rfl
  | cons q calls ih =>
    rw [paint, execSetLed_in_range q.2 (h q (by simp)), andThen_next]
    exact ih (s := setLedAt q.1.toNat q.2 s) fun x hx => h x (by simp [hx])

/-- The level that calls leave at a position that had the level `old`: that of the last call there. -/
def levelAfter (calls : List (Int × Byte)) (pos : Nat) (old : Byte) : Byte :=
  calls.foldl (fun v q => if q.1 = (pos : Int) then q.2 else v) old

theorem levelAfter_append (l m : List (Int × Byte)) (pos : Nat) (old : Byte) :
    levelAfter (l ++ m) pos old = levelAfter m pos (levelAfter l pos old) := List.foldl_append

@[simp] theorem levelAfter_cons (q : Int × Byte) (l : List (Int × Byte)) (pos : Nat) (old : Byte) :
    levelAfter (q :: l) pos old = levelAfter l pos (if q.1 = (pos : Int) then q.2 else old) := rfl

@[simp] theorem levelAfter_nil (pos : Nat) (old : Byte) : levelAfter [] pos old = old := rfl

theorem painted_intensity {c : Config} {calls : List (Int × Byte)} {d : Display} (h : InTable c.nLeds calls)
    (hlen : d.intensity.length = c.nLeds) (pos : Nat) :
    (d.painted c calls).intensity.getD pos 0 = levelAfter calls pos (d.intensity.getD pos 0) := by
  induction calls generalizing d with
  | nil => rfl
  | cons q calls ih =>
    obtain ⟨hlow, hhigh⟩ := h q (by simp)
    have hset : (d.setLed c q.1.toNat q.2).intensity.getD pos 0 = if q.1 = (pos : Int) then q.2 else d.intensity.getD pos 0 := by
      refine (getD_set _ _ _ _ _ (by omega)).trans (if_congr ?_ rfl rfl)
      omega
    rw [levelAfter_cons, ← hset]
    exact ih (fun x hx => h x (by simp [hx])) (by simp [Display.setLed, hlen])

theorem clearAllCalls_eq (n : Nat) : clearAllCalls n = (List.range n).map (fun k : Nat => ((k : Int), (0 : Byte))) := by
  simp [clearAllCalls, ← List.map_eq_flatMap]

theorem inTable_clearAll (n : Nat) : InTable n (clearAllCalls n) := by
  intro q hq
  rw [clearAllCalls_eq] at hq
  obtain ⟨k, hk, rfl⟩ := List.mem_map.1 hq
  have hk' := List.mem_range.1 hk
  exact ⟨Int.natCast_nonneg k, Int.ofNat_lt.2 hk'⟩

theorem levelAfter_clearAll (n pos : Nat) (old : Byte) :
    levelAfter (clearAllCalls n) pos old = if pos < n then 0 else old := by
  induction n with
  | zero => rfl
  | succ n ih =>
    have hsplit : clearAllCalls (n + 1) = clearAllCalls n ++ [((n : Int), (0 : Byte))] := by
      simp [clearAllCalls_eq, List.range_succ]
    rw [hsplit, levelAfter_append, ih, levelAfter_cons, levelAfter_nil]
    simp only [Int.natCast_inj]
    rcases Nat.lt_trichotomy pos n with hlt | rfl | hgt
    · rw [if_neg hlt.ne', if_pos hlt, if_pos (Nat.lt_succ_of_lt hlt)]
    · rw [if_pos rfl, if_pos (Nat.lt_succ_self _)]
    · rw [if_neg hgt.ne, if_neg hgt.asymm, if_neg (by omega)]

/-- What shows after the display was cleared and then painted. -/
theorem cleared_painted_intensity {c : Config} {calls : List (Int × Byte)} {d : Display} (h : InTable c.nLeds calls)
    (hlen : d.intensity.length = c.nLeds) {pos : Nat} (hpos : pos < c.nLeds) :
    (d.painted c (clearAllCalls c.nLeds ++ calls)).intensity.getD pos 0 = levelAfter calls pos 0 := by
  have hall : InTable c.nLeds (clearAllCalls c.nLeds ++ calls) := fun q hq =>
    (List.mem_append.1 hq).elim (inTable_clearAll _ q) (h q)
  rw [painted_intensity hall hlen, levelAfter_append, levelAfter_clearAll, if_pos hpos]

/-! ### The clicks (R204) -/

/-- The other mode. -/
def Mode.other : Mode → Mode
  | .normal => .adjust
  | .adjust => .normal

theorem Mode.other_ne (m : Mode) : m.other ≠ m := by cases m <;> decide

/-- The mode toggled and the display cleared. -/
def toggled (s : State) : State :=
  (s.withHost { s.host with mode := s.host.mode.other }).withDisp (s.disp.painted s.cfg (clearAllCalls s.cfg.nLeds))

theorem toggleMode_eq (s : State) : toggleMode s = .next (toggled s) := by
  unfold toggleMode
  unfold toggled
  cases s.host.mode <;> exact paint_eq (s := s.withHost _) (inTable_clearAll _)

theorem clickPhase_of_no_click (d : HostDraw) {s : State} (h : s.dec.clicks = 0) :
    clickPhase d s = .next (drainClicks s) := by
  rw [clickPhase, h]
  rfl

theorem clickPhase_of_one_click (d : HostDraw) {s : State} (h : s.dec.clicks = 1) :
    clickPhase d s = .next (toggled (drainClicks s)) := by
  rw [clickPhase, h, togglesFor, toggleTimes, toggleMode_eq]
  rfl

theorem toggleTimes_completes (k : Nat) (s : State) : ∃ t, toggleTimes k s = .next t := by
  induction k generalizing s with
  | zero => exact ⟨s, rfl⟩
  | succ k ih =>
    rw [toggleTimes, toggleMode_eq]
    exact ih _

/-! ### The handlers (R205 to R211) -/

/-- What a frame paints after the display was cleared. -/
def frameCalls (d : HostDraw) (c : Config) (h : HostState) (dir : Int) : List (Int × Byte) :=
  match h.animationType with
  | 0 => cometCalls c h.focus dir
  | 1 => symmetricCalls c h.focus
  | _ => sweepCalls c (sweepFocus c.nLeds h.sweep h.focus d.readvance) d.onPath

/-- The host after a frame was painted: a sweep moves on. -/
def paintedHost (d : HostDraw) (c : Config) (h : HostState) : HostState :=
  match h.animationType with
  | 0 => h
  | 1 => h
  | _ => { h with focus := sweepFocus c.nLeds h.sweep h.focus d.readvance, sweep := nextSweep c.nLeds h.sweep }

theorem paintFrame_eq_paint (d : HostDraw) (dir : Int) (s : State) :
    paintFrame d dir s = paint (frameCalls d s.cfg s.host dir) (s.withHost (paintedHost d s.cfg s.host)) := by
  rcases hkind : s.host.animationType with _ | _ | k <;> simp only [paintFrame, frameCalls, paintedHost, hkind] <;> rfl

theorem sweepCalls_eq (c : Config) (focus : Nat) (onPath : Nat → Bool) :
    sweepCalls c focus onPath =
      ((List.range c.nLeds).filter onPath).map (fun k : Nat => ((k : Int), Config.dimLevel)) ++ [((focus : Int), Config.full)] := by
  simp [sweepCalls, ← List.map_eq_flatMap]

theorem inTable_tail {n : Nat} (hn : 0 < n) (x : Int) (v : Byte) : 0 ≤ ((wrapIndex x n : Int), v).1 ∧
    ((wrapIndex x n : Int), v).1 < n :=
  ⟨Int.natCast_nonneg _, Int.ofNat_lt.2 (wrapIndex_lt x hn)⟩

theorem inTable_frameCalls (d : HostDraw) (c : Config) (h : HostState) (dir : Int) (hfocus : h.focus < c.nLeds) :
    InTable c.nLeds (frameCalls d c h dir) := by
  have hn : 0 < c.nLeds := Nat.zero_lt_of_lt hfocus
  have hlast {focus : Nat} (hf : focus < c.nLeds) (q : Int × Byte) (hq : q ∈ [((focus : Int), Config.full)]) :
      0 ≤ q.1 ∧ q.1 < c.nLeds := by
    rw [List.mem_singleton.1 hq]
    exact ⟨Int.natCast_nonneg _, Int.ofNat_lt.2 hf⟩
  unfold frameCalls
  split
  · refine fun q hq => (List.mem_append.1 hq).elim (fun htail => ?_) (hlast hfocus q)
    obtain ⟨k, -, rfl⟩ := List.mem_map.1 htail
    exact inTable_tail hn _ _
  · refine fun q hq => (List.mem_append.1 hq).elim (fun htail => ?_) (hlast hfocus q)
    obtain ⟨k, -, hpair⟩ := List.mem_flatMap.1 htail
    rcases List.mem_cons.1 hpair with rfl | hsecond
    · exact inTable_tail hn _ _
    · rw [List.mem_singleton.1 hsecond]
      exact inTable_tail hn _ _
  · rw [sweepCalls_eq]
    refine fun q hq => (List.mem_append.1 hq).elim (fun hpath => ?_) (hlast (sweepFocus_lt _ _ hfocus) q)
    obtain ⟨k, hk, rfl⟩ := List.mem_map.1 hpath
    exact ⟨Int.natCast_nonneg k, Int.ofNat_lt.2 (List.mem_range.1 (List.mem_filter.1 hk).1)⟩

/-- The state after a frame (R206). -/
def framed (d : HostDraw) (s : State) : State :=
  ((drainIncrement s).withHost (paintedHost d s.cfg (frameHost s))).withDisp
    (s.disp.painted s.cfg (clearAllCalls s.cfg.nLeds ++ frameCalls d s.cfg (frameHost s) (foldedSpeed s).sign))

theorem frameHost_focus_lt {s : State} (h : s.HostOk) : (frameHost s).focus < s.cfg.nLeds := (frameHost_ok s h).1

theorem frame_eq (d : HostDraw) {s : State} (h : s.HostOk) : frame d s = .next (framed d s) := by
  have hcalls := inTable_frameCalls d s.cfg (frameHost s) (foldedSpeed s).sign (frameHost_focus_lt h)
  have hclear := paint_eq (s := (drainIncrement s).withHost (frameHost s)) (inTable_clearAll s.cfg.nLeds)
  rw [frame, hclear, andThen_next, paintFrame_eq_paint, paint_eq]
  · simp only [framed, Display.painted, List.foldl_append]
    rfl
  · exact hcalls

/-- The state after an ADJUST handler with increment `v` (R211). -/
def adjusted (v : Int) (s : State) : State :=
  (s.withHost { s.host with animationType := wrapIndex (s.host.animationType + v) Config.nAnim }).withDisp
    (s.disp.painted s.cfg
      (clearAllCalls s.cfg.nLeds ++ [((wrapIndex (s.host.animationType + v) Config.nAnim : Int), Config.full)]))

theorem inTable_kind {n : Nat} (hn : 3 ≤ n) (x : Int) :
    InTable n [((wrapIndex x Config.nAnim : Int), Config.full)] := by
  intro q hq
  have hlt : wrapIndex x Config.nAnim < 3 := wrapIndex_lt x (by decide)
  rw [List.mem_singleton.1 hq]
  exact ⟨Int.natCast_nonneg _, Int.ofNat_lt.2 (by omega)⟩

theorem adjustBy_eq (v : Int) {s : State} (hn : 3 ≤ s.cfg.nLeds) : adjustBy v s = .next (adjusted v s) :=
  paint_eq (s := s.withHost _) fun q hq =>
    (List.mem_append.1 hq).elim (inTable_clearAll _ q) (inTable_kind hn _ q)

/-- The state after the current mode's handler (R203 c). -/
def handled (d : HostDraw) (s : State) : State :=
  match s.host.mode with
  | .normal =>
    if Config.frameThreshold ≤ pacedCounter s.host then framed d s
    else s.withHost { s.host with counter := pacedCounter s.host }
  | .adjust => adjusted s.dec.increment.toInt (drainIncrement s)

theorem handlerPhase_eq (d : HostDraw) {s : State} (h : s.HostOk) (hn : s.host.mode = .adjust → 3 ≤ s.cfg.nLeds) :
    handlerPhase d s = .next (handled d s) := by
  unfold handlerPhase handled
  cases hm : s.host.mode with
  | normal =>
    dsimp only
    rw [normalTick, frame_eq d h, apply_ite Host.Outcome.next]
  | adjust => exact adjustBy_eq _ (hn hm)

theorem handled_normal_early (d : HostDraw) {s : State} (hm : s.host.mode = .normal)
    (h : s.host.counter + max 1 s.host.speed.natAbs < 100000) :
    handled d s = s.withHost { s.host with counter := pacedCounter s.host } := by
  have hearly : ¬ Config.frameThreshold ≤ pacedCounter s.host := Nat.not_le.2 h
  simp only [handled, hm, if_neg hearly]

theorem handled_normal_due (d : HostDraw) {s : State} (hm : s.host.mode = .normal)
    (h : 100000 ≤ s.host.counter + max 1 s.host.speed.natAbs) : handled d s = framed d s := by
  have hdue : Config.frameThreshold ≤ pacedCounter s.host := h
  simp only [handled, hm, if_pos hdue]

theorem handled_adjust (d : HostDraw) {s : State} (hm : s.host.mode = .adjust) :
    handled d s = adjusted s.dec.increment.toInt (drainIncrement s) := by
  simp only [handled, hm]

theorem paintedHost_keeps (d : HostDraw) (c : Config) (h : HostState) :
    (paintedHost d c h).mode = h.mode ∧ (paintedHost d c h).lastCommand = h.lastCommand ∧
    (paintedHost d c h).counter = h.counter ∧ (paintedHost d c h).speed = h.speed ∧
    (paintedHost d c h).injected = h.injected := by
  unfold paintedHost
  split <;> exact ⟨rfl, rfl, rfl, rfl, rfl⟩

/-- What the handler leaves in every mode. -/
structure HandlerFrame (s t : State) : Prop where
  cfg : t.cfg = s.cfg
  clicks : t.dec.clicks = s.dec.clicks
  regs : t.regs = s.regs
  scr : t.scr = s.scr
  races : t.races = s.races
  mode : t.host.mode = s.host.mode
  lastCommand : t.host.lastCommand = s.host.lastCommand

theorem handled_frame (d : HostDraw) (s : State) : HandlerFrame s (handled d s) := by
  cases hm : s.host.mode with
  | normal =>
    rcases Nat.lt_or_ge (s.host.counter + max 1 s.host.speed.natAbs) 100000 with hlt | hge
    · rw [handled_normal_early d hm hlt]
      exact ⟨rfl, rfl, rfl, rfl, rfl, rfl, rfl⟩
    · rw [handled_normal_due d hm hge]
      obtain ⟨hmode, hlast, -⟩ := paintedHost_keeps d s.cfg (frameHost s)
      exact ⟨rfl, rfl, rfl, rfl, rfl, hmode, hlast⟩
  | adjust =>
    rw [handled_adjust d hm]
    exact ⟨rfl, rfl, rfl, rfl, rfl, rfl, rfl⟩

/-! ### The command (R209) -/

/-- The state in which the host dispatches the command it read undisturbed. -/
def commandNoted (s : State) : State :=
  { s with
    host := { s.host with lastCommand := some (s.scr.latchedAddress, s.scr.buffer.toList.take s.scr.size) }
    races := s.races.tail
    trace := s.trace ++ [.command s.scr.latchedAddress (s.scr.buffer.toList.take s.scr.size)] }

theorem commandPhase_undisturbed (d : HostDraw) {s : State} (h : s.undisturbed) :
    commandPhase d s =
      dispatchCommand (commandAccepted d s.host.lastCommand (s.scr.latchedAddress, s.scr.buffer.toList.take s.scr.size))
        (s.scr.latchedAddress, s.scr.buffer.toList.take s.scr.size) (commandNoted s) := by
  rw [commandPhase, execGetCommand_undisturbed h, andThen_next, getCommand_undisturbed h, commandRead_undisturbed h]
  rfl

/-- A command that differs from the one read last is taken (assumption log 13). -/
theorem commandAccepted_of_differs (d : HostDraw) {s : State} (h : s.commandDiffers) :
    commandAccepted d s.host.lastCommand (s.scr.latchedAddress, s.scr.buffer.toList.take s.scr.size) = true := by
  unfold commandAccepted
  cases hlast : s.host.lastCommand with
  | none => rfl
  | some old => exact if_pos (h old hlast)

theorem dispatchCommand_value {bytes : List Byte} (h : bytes.length = 4) (s : State) :
    dispatchCommand true (0, bytes) s = inject (payload bytes) s := by
  simp [dispatchCommand, h]

theorem dispatchCommand_malformed (accepted : Bool) {bytes : List Byte} (h : bytes.length ≠ 4) (s : State) :
    dispatchCommand accepted (0, bytes) s = .next (s.raise .malformedCommand) := by
  simp [dispatchCommand, h]

theorem dispatchCommand_click (bytes : List Byte) (s : State) :
    dispatchCommand true (1, bytes) s = .next (toggled s) := by
  rw [← toggleMode_eq]
  rfl

theorem dispatchCommand_completes (accepted : Bool) (cmd : Addr × List Byte) {s : State} (hn : 3 ≤ s.cfg.nLeds) :
    ∃ t, dispatchCommand accepted cmd s = .next t := by
  have hinject (v : Int) : ∃ t, inject v s = .next t := by
    unfold inject
    split
    · exact ⟨_, rfl⟩
    · exact ⟨_, adjustBy_eq v hn⟩
  unfold dispatchCommand
  split
  · split_ifs
    · exact hinject _
    · exact ⟨_, rfl⟩
    · exact ⟨_, rfl⟩
  · split_ifs
    · exact ⟨_, toggleMode_eq s⟩
    · exact ⟨_, rfl⟩
  · exact ⟨_, rfl⟩

/-! ### The six orders (R203) -/

/-- Sub-steps that complete in every order: `P` says what holds by which of the three have been. -/
theorem inOrder_completes {P : Bool → Bool → Bool → State → Prop} {a b c : State → Result}
    (ha : ∀ y z u, P false y z u → ∃ v, a u = .next v ∧ P true y z v)
    (hb : ∀ x z u, P x false z u → ∃ v, b u = .next v ∧ P x true z v)
    (hc : ∀ x y u, P x y false u → ∃ v, c u = .next v ∧ P x y true v)
    {s : State} (hs : P false false false s) (o : Fin 6) :
    ∃ t, inOrder o a b c s = .next t ∧ P true true true t := by
  have hchain {p q r : State → Result} {P₀ P₁ P₂ P₃ : State → Prop} (hp : ∀ u, P₀ u → ∃ v, p u = .next v ∧ P₁ v)
      (hq : ∀ u, P₁ u → ∃ v, q u = .next v ∧ P₂ v) (hr : ∀ u, P₂ u → ∃ v, r u = .next v ∧ P₃ v) (h₀ : P₀ s) :
      ∃ t, andThen (andThen (p s) q) r = .next t ∧ P₃ t := by
    obtain ⟨u, hu, h₁⟩ := hp s h₀
    obtain ⟨v, hv, h₂⟩ := hq u h₁
    obtain ⟨t, ht, h₃⟩ := hr v h₂
    exact ⟨t, by rw [hu, andThen_next, hv, andThen_next, ht], h₃⟩
  unfold inOrder
  split
  · exact hchain (ha false false) (hb true false) (hc true true) hs
  · exact hchain (ha false false) (hc true false) (hb true true) hs
  · exact hchain (hb false false) (ha true false) (hc true true) hs
  · exact hchain (hb false false) (hc false true) (ha true true) hs
  · exact hchain (hc false false) (ha false true) (hb true true) hs
  · exact hchain (hc false false) (hb false true) (ha true true) hs

/-- A host tick completes if its sub-steps do, in every order. -/
theorem ctrlTick_completes {P : Bool → Bool → Bool → State → Prop} {s : State}
    (ha : ∀ y z u, P false y z u → ∃ v, clickPhase (drawAt s.draws) u = .next v ∧ P true y z v)
    (hb : ∀ x z u, P x false z u → ∃ v, handlerPhase (drawAt s.draws) u = .next v ∧ P x true z v)
    (hc : ∀ x y u, P x y false u → ∃ v, commandPhase (drawAt s.draws) u = .next v ∧ P x y true v)
    (hs : P false false false (s.withDraws (s.draws + 1))) : ∃ t, exec .ctrlTick s = .next t ∧ P true true true t :=
  inOrder_completes ha hb hc hs _

/-- Settles O53: each sub-step completes in a state that meets the invariant, and keeps it. -/
theorem ctrlTickCompletes : Obligations.CtrlTickCompletes := by
  intro s hs hn hrange
  have htick := ctrlTick_completes (s := s)
    (P := fun _ _ z u => u.Inv ∧ u.cfg = s.cfg ∧ (z = false → u.races = s.races)) ?_ ?_ ?_
    ⟨(ControlStep.draws _).inv hs, rfl, fun _ => rfl⟩
  · exact htick.imp fun t ht => ht.1
  · rintro y z u ⟨hinv, hcfg, hraces⟩
    obtain ⟨v, hv⟩ := toggleTimes_completes (togglesFor (drawAt s.draws) u.dec.clicks) (drainClicks u)
    have hsteps := controlSteps_of_clickPhase hv
    exact ⟨v, hv, hsteps.inv hinv, hsteps.cfg_eq.trans hcfg, fun hz => hsteps.races_eq.trans (hraces hz)⟩
  · rintro x z u ⟨hinv, hcfg, hraces⟩
    have hv := handlerPhase_eq (drawAt s.draws) hinv.2.2.2.2 fun _ => hcfg ▸ hn
    have hsteps := controlSteps_of_handlerPhase hv
    exact ⟨_, hv, hsteps.inv hinv, hsteps.cfg_eq.trans hcfg, fun hz => hsteps.races_eq.trans (hraces hz)⟩
  · rintro x y u ⟨hinv, hcfg, hraces⟩
    have hrange' : u.raceInRange := by
      have hrace : u.race = s.race := by rw [State.race, hraces rfl, State.race]
      rw [State.raceInRange, hrace, hcfg]
      exact hrange
    have hcfg' : (getCommand u).cfg = u.cfg := (subSteps_getCommand u).cfg_eq
    obtain ⟨v, hv⟩ := dispatchCommand_completes
      (commandAccepted (drawAt s.draws) u.host.lastCommand (commandRead u)) (commandRead u)
      (s := (getCommand u).withHost { u.host with lastCommand := some (commandRead u) })
      (by rw [State.withHost_cfg, hcfg', hcfg]; exact hn)
    have hphase : commandPhase (drawAt s.draws) u = .next v := by
      rw [commandPhase, execGetCommand_inRange hrange', andThen_next, hv]
    have hsteps := subSteps_of_commandPhase hphase
    exact ⟨v, hphase, hsteps.inv hinv, hsteps.cfg_eq.trans hcfg, fun hz => by cases hz⟩

end Sys2Proof.Machine
end

section
/-! SUPPORT. Proofs for spec/43_host_controller.md: ticks with nothing but the handler to do (R205 to R213), a click (R204)
and a command (R209). -/

namespace Sys2Proof.Machine

/-! ### Ticks in which only the handler acts -/

/-- The same state, but for what the host remembers of commands and the model's own fields. -/
def State.aside (s : State) (last : Option (Addr × List Byte)) (races : List (List RaceItem)) (draws : Nat)
    (trace : List Output) : State :=
  { s with host := { s.host with lastCommand := last }, races := races, draws := draws, trace := trace }

/-- Two states that differ in those fields at most. -/
def Alike (s t : State) : Prop := ∃ last races draws trace, t = s.aside last races draws trace

theorem Alike.refl (s : State) : Alike s s := ⟨_, _, _, _, rfl⟩

theorem Alike.trans {s t u : State} (h : Alike s t) (k : Alike t u) : Alike s u := by
  obtain ⟨_, _, _, _, rfl⟩ := h
  obtain ⟨_, _, _, _, rfl⟩ := k
  exact ⟨_, _, _, _, rfl⟩

theorem Alike.inv {s t : State} (h : Alike s t) (hs : s.Inv) : t.Inv := by
  obtain ⟨_, _, _, _, rfl⟩ := h
  exact hs

theorem handled_aside (d : HostDraw) (s : State) (last : Option (Addr × List Byte)) (races : List (List RaceItem))
    (draws : Nat) (trace : List Output) : Alike (handled d s) (handled d (s.aside last races draws trace)) := by
  cases hm : s.host.mode with
  | normal =>
    have hm' : (s.aside last races draws trace).host.mode = .normal := hm
    rcases Nat.lt_or_ge (s.host.counter + max 1 s.host.speed.natAbs) 100000 with hlt | hge
    · rw [handled_normal_early d hm hlt, handled_normal_early d hm' hlt]
      exact ⟨last, races, draws, trace, rfl⟩
    · rw [handled_normal_due d hm hge, handled_normal_due d hm' hge]
      refine ⟨last, races, draws, trace ++ [.increment s.dec.increment], ?_⟩
      unfold framed frameCalls paintedHost
      rcases hkind : s.host.animationType with _ | _ | k <;>
        simp only [frameHost, State.aside, hkind] <;> rfl
  | adjust =>
    have hm' : (s.aside last races draws trace).host.mode = .adjust := hm
    rw [handled_adjust d hm, handled_adjust d hm']
    exact ⟨last, races, draws, trace ++ [.increment s.dec.increment], rfl⟩

theorem Alike.handled {s t : State} (d : HostDraw) (h : Alike s t) :
    Alike (Machine.handled d s) (Machine.handled d t) := by
  obtain ⟨last, races, draws, trace, rfl⟩ := h
  exact handled_aside d s last races draws trace

/-- Taking no click changes nothing else. -/
theorem drainClicks_alike {s : State} (h : s.dec.clicks = 0) : Alike s (drainClicks s) := by
  refine ⟨s.host.lastCommand, s.races, s.draws, s.trace ++ [.clicks s.dec.clicks], ?_⟩
  have hdec : ({ s.dec with clicks := 0 } : Decoder) = s.dec := by rw [← h]
  rw [drainClicks, hdec]
  rfl

/-- What makes a tick one in which only the handler acts. -/
structure QuietTick (s : State) : Prop where
  inv : s.Inv
  clicks : s.dec.clicks = 0
  undisturbed : s.undisturbed
  noCommand : s.noCommand
  leds : s.host.mode = .adjust → 3 ≤ s.cfg.nLeds

/-- With no click and no command a tick is its handler, whatever the order (R203). -/
theorem QuietTick.exec {s : State} (h : QuietTick s) :
    ∃ t, exec .ctrlTick s = .next t ∧ Alike (handled (drawAt s.draws) s) t ∧ t.races = s.races.tail := by
  obtain ⟨hinv, hclicks, hrace, hcommand, hleds⟩ := h
  have ⟨_, _, _, hscratch, hhost⟩ := hinv
  have hframe := handled_frame (drawAt s.draws) s
  have hbase (y : Bool) : (if y = true then handled (drawAt s.draws) s else s).dec.clicks = 0 ∧
      (if y = true then handled (drawAt s.draws) s else s).scr = s.scr := by
    cases y
    · exact ⟨hclicks, rfl⟩
    · exact ⟨hframe.clicks.trans hclicks, hframe.scr⟩
  refine ctrlTick_completes (P := fun _ y z u => Alike (if y = true then handled (drawAt s.draws) s else s) u ∧
    u.races = if z = true then s.races.tail else s.races) ?_ ?_ ?_ ⟨⟨_, _, _, _, rfl⟩, rfl⟩
  · rintro y z u ⟨halike, hraces⟩
    have hu : u.dec.clicks = 0 := by
      obtain ⟨_, _, _, _, rfl⟩ := halike
      exact (hbase y).1
    exact ⟨_, clickPhase_of_no_click _ hu, halike.trans (drainClicks_alike hu), hraces⟩
  · rintro x z u ⟨halike, hraces⟩
    have hphase : handlerPhase (drawAt s.draws) u = .next (handled (drawAt s.draws) u) := by
      obtain ⟨_, _, _, _, rfl⟩ := halike
      exact handlerPhase_eq _ hhost hleds
    exact ⟨_, hphase, halike.handled _, (handled_frame _ u).races.trans hraces⟩
  · rintro x y u ⟨halike, hraces⟩
    have hscr : u.scr = s.scr := by
      obtain ⟨_, _, _, _, rfl⟩ := halike
      exact (hbase y).2
    have hquiet : u.undisturbed := by
      have hsame : u.race = s.race := by rw [State.race, hraces]; rfl
      exact hsame.trans hrace
    obtain ⟨shown, hphase⟩ := commandPhase_noCommand (drawAt s.draws) hquiet
      (by rw [State.noCommand, hscr]; exact hcommand) (by rw [State.ScratchOk, hscr]; exact hscratch)
    exact ⟨_, hphase, halike.trans ⟨_, _, _, _, rfl⟩, congrArg List.tail hraces⟩

/-! ### NORMAL ticks (R205, R206) -/

theorem foldedSpeed_eq (s : State) : foldedSpeed s = s.host.speed + s.dec.increment.toInt + s.host.injected := rfl

theorem framed_host (d : HostDraw) (s : State) : (framed d s).host = paintedHost d s.cfg (frameHost s) := rfl

theorem paintedHost_of_comet (d : HostDraw) (c : Config) {h : HostState} (hkind : h.animationType < 2) :
    paintedHost d c h = h := by
  unfold paintedHost
  rcases hk : h.animationType with _ | _ | k
  · rfl
  · rfl
  · omega

theorem paintedHost_of_sweep (d : HostDraw) (c : Config) {h : HostState} (hkind : h.animationType = 2) :
    paintedHost d c h =
      { h with focus := sweepFocus c.nLeds h.sweep h.focus d.readvance, sweep := nextSweep c.nLeds h.sweep } := by
  obtain ⟨mode, kind, speed, focus, counter, sweep, injected, last⟩ := h
  obtain rfl : kind = 2 := hkind
  rfl

/-- Settles O54: the two branches of the NORMAL handler. -/
theorem normalTickPacesTheFrames : Obligations.NormalTickPacesTheFrames := by
  intro s hs hmode hclicks hrace hcommand
  have hquiet : QuietTick s := ⟨hs, hclicks, hrace, hcommand, fun h => by rw [hmode] at h; cases h⟩
  obtain ⟨t, ht, ⟨_, _, _, _, rfl⟩, -⟩ := hquiet.exec
  refine ⟨_, ht, (handled_frame _ s).mode.trans hmode, fun hlt => ?_, fun hge => ?_⟩
  · rw [handled_normal_early _ hmode hlt]
    exact ⟨rfl, rfl, rfl, rfl, rfl⟩
  · rw [handled_normal_due _ hmode hge]
    obtain ⟨-, -, hcounter, hspeed, hinjected⟩ := paintedHost_keeps (drawAt s.draws) s.cfg (frameHost s)
    refine ⟨hcounter, hspeed, hinjected, rfl, fun hkind => ?_⟩
    have hhost := paintedHost_of_comet (drawAt s.draws) s.cfg (h := frameHost s) hkind
    simp only [State.aside, framed_host, hhost]
    exact wrapIndex_cast _ (Nat.zero_lt_of_lt hs.2.2.2.2.1)

/-! ### What a frame shows (R207, R208, R210) -/

theorem framed_level (d : HostDraw) {s : State} (hs : s.Inv) {pos : Nat} (hpos : pos < s.cfg.nLeds) :
    (framed d s).disp.intensity.getD pos 0 =
      levelAfter (frameCalls d s.cfg (frameHost s) (foldedSpeed s).sign) pos 0 := by
  obtain ⟨-, -, ⟨⟨hlen, -⟩, -⟩, -, hhost⟩ := hs
  exact cleared_painted_intensity (inTable_frameCalls _ _ _ _ (frameHost_focus_lt hhost)) hlen hpos

/-- A call at a residue is one at the position with that value. -/
theorem wrapIndex_eq_iff {x : Int} {n pos : Nat} (hn : 0 < n) : ((wrapIndex x n : Nat) : Int) = pos ↔ (pos : Int) = x % n := by
  rw [wrapIndex_cast x hn, eq_comm]

theorem levelAfter_comet (c : Config) {focus pos : Nat} (dir : Int) (hn : 0 < c.nLeds) :
    levelAfter (cometCalls c focus dir) pos 0 =
      if pos = focus then 0xFF
      else if (pos : Int) = (focus - dir) % (c.nLeds : Int) ∨ (pos : Int) = (focus - 2 * dir) % (c.nLeds : Int) then
        c.partialLevel
      else 0 := by
  have hcalls : cometCalls c focus dir =
      [((wrapIndex (focus - dir * (0 + 1)) c.nLeds : Int), c.partialLevel),
       ((wrapIndex (focus - dir * (1 + 1)) c.nLeds : Int), c.partialLevel), ((focus : Int), Config.full)] := rfl
  rw [hcalls]
  simp only [levelAfter_cons, levelAfter_nil, wrapIndex_eq_iff hn, Int.natCast_inj, zero_add, mul_one,
    show dir * (1 + 1) = 2 * dir by ring]
  grind

theorem levelAfter_symmetric (c : Config) {focus pos : Nat} (hn : 0 < c.nLeds) :
    levelAfter (symmetricCalls c focus) pos 0 =
      if pos = focus then 0xFF
      else if (pos : Int) = ((focus : Int) + 1) % c.nLeds ∨ (pos : Int) = ((focus : Int) + 2) % c.nLeds ∨
        (pos : Int) = ((focus : Int) - 1) % c.nLeds ∨ (pos : Int) = ((focus : Int) - 2) % c.nLeds then c.partialLevel
      else 0 := by
  have hcalls : symmetricCalls c focus =
      [((wrapIndex ((focus : Int) - (0 + 1)) c.nLeds : Int), c.partialLevel),
       ((wrapIndex ((focus : Int) + (0 + 1)) c.nLeds : Int), c.partialLevel),
       ((wrapIndex ((focus : Int) - (1 + 1)) c.nLeds : Int), c.partialLevel),
       ((wrapIndex ((focus : Int) + (1 + 1)) c.nLeds : Int), c.partialLevel), ((focus : Int), Config.full)] := rfl
  rw [hcalls]
  simp only [levelAfter_cons, levelAfter_nil, wrapIndex_eq_iff hn, Int.natCast_inj, zero_add, one_add_one_eq_two]
  grind

/-- Calls with one level leave that level or the old one. -/
theorem levelAfter_of_level {calls : List (Int × Byte)} {v : Byte} (h : ∀ q ∈ calls, q.2 = v) (pos : Nat) (old : Byte) :
    levelAfter calls pos old = old ∨ levelAfter calls pos old = v := by
  induction calls generalizing old with
  | nil => exact .inl rfl
  | cons q calls ih =>
    rw [levelAfter_cons]
    have hrest := ih (fun x hx => h x (by simp [hx]))
    split_ifs
    · rcases hrest q.2 with hsame | hv
      · exact .inr (hsame.trans (h q (by simp)))
      · exact .inr hv
    · exact hrest old

theorem levelAfter_sweep (c : Config) (focus : Nat) (onPath : Nat → Bool) (pos : Nat) :
    (pos = focus → levelAfter (sweepCalls c focus onPath) pos 0 = 0xFF) ∧
    (pos ≠ focus → levelAfter (sweepCalls c focus onPath) pos 0 = 0 ∨
      levelAfter (sweepCalls c focus onPath) pos 0 = Config.dimLevel) := by
  have hdim : ∀ q ∈ ((List.range c.nLeds).filter onPath).map (fun k : Nat => ((k : Int), Config.dimLevel)),
      q.2 = Config.dimLevel := by
    intro q hq
    obtain ⟨k, -, rfl⟩ := List.mem_map.1 hq
    rfl
  rw [sweepCalls_eq, levelAfter_append, levelAfter_cons, levelAfter_nil]
  refine ⟨fun h => if_pos (by rw [h]), fun h => ?_⟩
  rw [if_neg (by simpa using Ne.symm h)]
  exact levelAfter_of_level hdim pos 0

/-- A due NORMAL tick with nothing else to do is a frame. -/
theorem exec_due {s : State} (hs : s.Inv) (hmode : s.host.mode = .normal) (hclicks : s.dec.clicks = 0)
    (hrace : s.undisturbed) (hcommand : s.noCommand) (hdue : 100000 ≤ s.host.counter + max 1 s.host.speed.natAbs) :
    ∃ t, exec .ctrlTick s = .next t ∧ Alike (framed (drawAt s.draws) s) t := by
  have hquiet : QuietTick s := ⟨hs, hclicks, hrace, hcommand, fun h => by rw [hmode] at h; cases h⟩
  obtain ⟨t, ht, halike, -⟩ := hquiet.exec
  rw [handled_normal_due _ hmode hdue] at halike
  exact ⟨t, ht, halike⟩

/-- What a frame of type 0 shows, by the focus and the speed it leaves. -/
theorem framed_comet (d : HostDraw) {s : State} (hs : s.Inv) (hkind : s.host.animationType = 0) {pos : Nat}
    (hpos : pos < s.cfg.nLeds) :
    (framed d s).disp.intensity.getD pos 0 =
      if pos = (frameHost s).focus then 0xFF
      else if (pos : Int) = ((frameHost s).focus - (foldedSpeed s).sign) % (s.cfg.nLeds : Int) ∨
        (pos : Int) = ((frameHost s).focus - 2 * (foldedSpeed s).sign) % (s.cfg.nLeds : Int) then s.cfg.partialLevel
      else 0 := by
  have hkind' : (frameHost s).animationType = 0 := hkind
  rw [framed_level d hs hpos, frameCalls, hkind']
  exact levelAfter_comet s.cfg _ (Nat.zero_lt_of_lt hpos)

theorem framed_symmetric (d : HostDraw) {s : State} (hs : s.Inv) (hkind : s.host.animationType = 1) {pos : Nat}
    (hpos : pos < s.cfg.nLeds) :
    (framed d s).disp.intensity.getD pos 0 =
      if pos = (frameHost s).focus then 0xFF
      else if (pos : Int) = (((frameHost s).focus : Int) + 1) % s.cfg.nLeds ∨
        (pos : Int) = (((frameHost s).focus : Int) + 2) % s.cfg.nLeds ∨
        (pos : Int) = (((frameHost s).focus : Int) - 1) % s.cfg.nLeds ∨
        (pos : Int) = (((frameHost s).focus : Int) - 2) % s.cfg.nLeds then s.cfg.partialLevel
      else 0 := by
  have hkind' : (frameHost s).animationType = 1 := hkind
  rw [framed_level d hs hpos, frameCalls, hkind']
  exact levelAfter_symmetric s.cfg (Nat.zero_lt_of_lt hpos)

/-- Settles O56: the calls of the two comets, the last one at the focus. -/
theorem cometFramesShowFocusAndTail : Obligations.CometFramesShowFocusAndTail := by
  intro s hs hmode hkind hclicks hrace hcommand hdue
  obtain ⟨t, ht, ⟨_, _, _, _, rfl⟩⟩ := exec_due hs hmode hclicks hrace hcommand hdue
  have hhost : (framed (drawAt s.draws) s).host = frameHost s := paintedHost_of_comet _ _ hkind
  refine ⟨_, ht, fun hzero pos hpos => ?_, fun hone pos hpos => ?_⟩
  · simp only [State.aside, hhost]
    exact framed_comet _ hs hzero hpos
  · simp only [State.aside, hhost]
    exact framed_symmetric _ hs hone hpos

/-- Settles O57: the focus of the sweep is painted last. -/
theorem sweepFrameEndsWithTheFocus : Obligations.SweepFrameEndsWithTheFocus := by
  intro s hs hmode hkind hclicks hrace hcommand hdue
  obtain ⟨t, ht, ⟨_, _, _, _, rfl⟩⟩ := exec_due hs hmode hclicks hrace hcommand hdue
  have hkind' : (frameHost s).animationType = 2 := hkind
  have hhost : (framed (drawAt s.draws) s).host =
      { frameHost s with
        focus := sweepFocus s.cfg.nLeds (frameHost s).sweep (frameHost s).focus (drawAt s.draws).readvance
        sweep := nextSweep s.cfg.nLeds (frameHost s).sweep } := paintedHost_of_sweep _ _ hkind'
  have hfocus := sweepFocus_lt (frameHost s).sweep (drawAt s.draws).readvance (frameHost_focus_lt hs.2.2.2.2)
  have hlevel (pos : Nat) (hpos : pos < s.cfg.nLeds) : (framed (drawAt s.draws) s).disp.intensity.getD pos 0 =
      levelAfter (sweepCalls s.cfg (sweepFocus s.cfg.nLeds (frameHost s).sweep (frameHost s).focus
        (drawAt s.draws).readvance) (drawAt s.draws).onPath) pos 0 := by
    rw [framed_level _ hs hpos, frameCalls, hkind']
    rfl
  refine ⟨_, ht, ?_, ?_, ?_, fun pos hpos hne => ?_⟩
  · simp only [State.aside, hhost]
    exact hfocus
  · simp only [State.aside, hhost]
    exact nextSweep_le _ _
  · simp only [State.aside, hhost]
    rw [hlevel _ hfocus]
    exact (levelAfter_sweep ..).1 rfl
  · simp only [State.aside, hhost] at hne ⊢
    rw [hlevel _ hpos]
    exact (levelAfter_sweep ..).2 hne

/-! ### ADJUST ticks (R211) -/

theorem adjusted_level {v : Int} {s : State} (hlen : s.disp.intensity.length = s.cfg.nLeds) (hn : 3 ≤ s.cfg.nLeds)
    {pos : Nat} (hpos : pos < s.cfg.nLeds) :
    (adjusted v s).disp.intensity.getD pos 0 =
      if pos = wrapIndex (s.host.animationType + v) Config.nAnim then 0xFF else 0 := by
  refine (cleared_painted_intensity (inTable_kind hn _) hlen hpos).trans ?_
  rw [levelAfter_cons, levelAfter_nil]
  exact if_congr (Int.natCast_inj.trans eq_comm) rfl rfl

/-- Settles O58: the ADJUST handler alone. -/
theorem adjustTickCyclesTheAnimation : Obligations.AdjustTickCyclesTheAnimation := by
  intro s hs hn hmode hclicks hrace hcommand
  have hquiet : QuietTick s := ⟨hs, hclicks, hrace, hcommand, fun _ => hn⟩
  obtain ⟨t, ht, ⟨_, _, _, _, rfl⟩, -⟩ := hquiet.exec
  obtain ⟨-, -, ⟨⟨hlen, -⟩, -⟩, -, -⟩ := hs
  refine ⟨_, ht, ?_, (handled_frame _ s).mode.trans hmode, ?_, fun pos hpos => ?_⟩
  · rw [handled_adjust _ hmode]
    rfl
  · rw [handled_adjust _ hmode]
    exact wrapIndex_cast _ (by decide)
  · rw [handled_adjust _ hmode]
    exact adjusted_level (s := drainIncrement s) hlen hn hpos

/-! ### The scenario of R213 -/

/-- The scenario after `k` ticks below the threshold. -/
structure ScenarioAt (s : State) (k : Nat) (u : State) : Prop where
  alike : Alike (s.withHost { s.host with counter := 4 * k }) u
  races : ∀ r ∈ u.races, r = []

section Scenario

variable {s : State} (hs : s.Inv) (hmode : s.host.mode = .normal) (hspeed : s.host.speed = 4) (hclicks : s.dec.clicks = 0)
  (hcommand : s.noCommand)

theorem undisturbed_of_races {u : State} (h : ∀ r ∈ u.races, r = []) : u.undisturbed := by
  unfold State.undisturbed State.race
  cases hr : u.races with
  | nil => rfl
  | cons r rest => exact h r (by simp [hr])

include hs hmode hclicks hcommand in
theorem ScenarioAt.quiet {k : Nat} {u : State} (h : ScenarioAt s k u) : QuietTick u := by
  have hrace := undisturbed_of_races h.races
  obtain ⟨_, _, _, _, rfl⟩ := h.alike
  exact ⟨hs, hclicks, hrace, hcommand, fun hadjust => by simp [State.aside, hmode] at hadjust⟩

include hs hmode hspeed hclicks hcommand

theorem ScenarioAt.tick {k : Nat} (hk : k + 1 < 25000) {u : State} (h : ScenarioAt s k u) :
    ∃ v, exec .ctrlTick u = .next v ∧ ScenarioAt s (k + 1) v := by
  obtain ⟨v, hv, halike, hraces⟩ := (h.quiet hs hmode hclicks hcommand).exec
  have hearly : handled (drawAt u.draws) u = u.withHost { u.host with counter := pacedCounter u.host } := by
    obtain ⟨_, _, _, _, rfl⟩ := h.alike
    refine handled_normal_early _ hmode ?_
    simp only [State.aside, State.withHost_host, hspeed]
    omega
  refine ⟨v, hv, ?_, fun r hr => h.races r (List.mem_of_mem_tail (hraces ▸ hr))⟩
  rw [hearly] at halike
  refine .trans ?_ halike
  obtain ⟨last, races, draws, trace, rfl⟩ := h.alike
  have hpaced : 4 * k + max 1 (4 : Int).natAbs = 4 * (k + 1) := by omega
  refine ⟨last, races, draws, trace, ?_⟩
  simp only [State.aside, State.withHost, pacedCounter, hspeed, hpaced]

theorem runOps_scenario (hraces : ∀ r ∈ s.races, r = []) (hcounter : s.host.counter = 0) (k : Nat) (hk : k < 25000) :
    ∃ u, runOps (List.replicate k .ctrlTick) s = .next u ∧ ScenarioAt s k u := by
  induction k with
  | zero =>
    refine ⟨s, rfl, ⟨s.host.lastCommand, s.races, s.draws, s.trace, ?_⟩, hraces⟩
    have hhost : ({ s.host with counter := 4 * 0 } : HostState) = s.host := by rw [Nat.mul_zero, ← hcounter]
    rw [hhost]
    rfl
  | succ k ih =>
    obtain ⟨u, hu, hat⟩ := ih (by omega)
    obtain ⟨v, hv, hnext⟩ := hat.tick hs hmode hspeed hclicks hcommand hk
    refine ⟨v, ?_, hnext⟩
    rw [List.replicate_succ', runOps_append, hu, andThen_next, runOps_cons, hv, andThen_next, runOps_nil]

/-- The last tick advances the frame. -/
theorem ScenarioAt.last {k : Nat} (hk : k + 1 = 25000) {u : State} (h : ScenarioAt s k u) :
    ∃ d v, exec .ctrlTick u = .next v ∧ Alike (framed d s) v := by
  have hquiet := h.quiet hs hmode hclicks hcommand
  obtain ⟨v, hv, halike⟩ := exec_due hquiet.inv
    (by obtain ⟨_, _, _, _, rfl⟩ := h.alike; exact hmode) hquiet.clicks hquiet.undisturbed hquiet.noCommand
    (by
      obtain ⟨_, _, _, _, rfl⟩ := h.alike
      simp only [State.aside, State.withHost_host, hspeed]
      omega)
  refine ⟨drawAt u.draws, v, hv, .trans ?_ halike⟩
  obtain ⟨last, races, draws, trace, rfl⟩ := h.alike
  refine ⟨last, races, draws, trace ++ [.increment s.dec.increment], ?_⟩
  unfold framed frameCalls paintedHost
  rcases hkind : s.host.animationType with _ | _ | k <;>
    simp only [frameHost, State.aside, State.withHost, hkind] <;> rfl

end Scenario

/-- The tail behind focus 1 in the direction of travel 1. -/
theorem tail_of_one {n pos : Nat} (hn : 3 ≤ n) (hpos : pos < n) (v : Byte) :
    (if pos = 1 then 0xFF
      else if (pos : Int) = (((1 : Nat) : Int) - Int.sign 7) % n ∨ (pos : Int) = (((1 : Nat) : Int) - 2 * Int.sign 7) % n
        then v
      else 0) = if pos = 1 then (0xFF : Byte) else if pos = 0 ∨ pos + 1 = n then v else 0 := by
  have hzero : (((1 : Nat) : Int) - Int.sign 7) % n = 0 := Int.zero_emod _
  have hlast : (((1 : Nat) : Int) - 2 * Int.sign 7) % n = n - 1 := by
    have hshift : (((1 : Nat) : Int) - 2 * Int.sign 7) = (n - 1) - n := by
      rw [show Int.sign 7 = 1 from rfl]
      omega
    rw [hshift, Int.sub_emod_right]
    exact Int.emod_eq_of_lt (by omega) (by omega)
  rw [hzero, hlast]
  refine if_congr Iff.rfl rfl (if_congr ?_ rfl rfl)
  omega

/-- Settles O55: 24999 ticks that only count, and the one that advances the frame. -/
theorem threeIncrementsAdvanceOneFrame : Obligations.ThreeIncrementsAdvanceOneFrame := by
  intro s hs hn hmode hkind hspeed hfocus hcounter hinjected hinc hclicks hcommand hraces
  have hrun := runOps_scenario hs hmode hspeed hclicks hcommand hraces hcounter
  have hfolded : foldedSpeed s = 7 := by
    rw [foldedSpeed_eq, hspeed, hinjected, hinc]
    rfl
  have hnext : (frameHost s).focus = 1 := by
    have hone : wrapIndex (1 : Int) s.cfg.nLeds = 1 := by
      have hmod : (1 : Int) % (s.cfg.nLeds : Int) = 1 := Int.emod_eq_of_lt (by decide) (by omega)
      rw [wrapIndex, hmod]
      rfl
    rw [← hone, frameHost, hfolded, hfocus]
    rfl
  refine ⟨fun k hk => ?_, ?_⟩
  · obtain ⟨u, hu, ⟨⟨_, _, _, _, rfl⟩, -⟩⟩ := hrun k hk
    exact ⟨_, hu, rfl, hspeed, hfocus, hinc, rfl⟩
  · obtain ⟨u, hu, hat⟩ := hrun 24999 (by decide)
    obtain ⟨d, v, hv, ⟨last, races, draws, trace, rfl⟩⟩ := hat.last hs hmode hspeed hclicks hcommand (k := 24999) rfl
    have hcomet : (frameHost s).animationType < 2 := hkind.trans_lt (by decide)
    have hhost : (framed d s).host = frameHost s := paintedHost_of_comet d s.cfg hcomet
    refine ⟨(framed d s).aside last races draws trace, ?_, ?_, ?_, ?_, rfl, fun pos hpos => ?_⟩
    · rw [List.replicate_succ' (n := 24999), runOps_append, hu, andThen_next, runOps_cons, hv, andThen_next, runOps_nil]
    · simp only [State.aside, hhost]; rfl
    · simp only [State.aside, hhost]; exact hfolded
    · simp only [State.aside, hhost]; exact hnext
    · refine (framed_comet d hs hkind hpos).trans ?_
      rw [hnext, hfolded]
      exact tail_of_one hn hpos s.cfg.partialLevel

end Sys2Proof.Machine
end

section
/-! SUPPORT. Proofs for spec/43_host_controller.md: a tick with one click (R204) and a tick with a command seen for the first
time (R209). -/

namespace Sys2Proof.Machine

/-- Nothing but the counter moves in a NORMAL tick below the threshold, for a counter and a speed known from before. -/
theorem handled_early_of_paced (d : HostDraw) {s u : State} (hm : u.host.mode = .normal)
    (hpaced : u.host.counter = s.host.counter ∧ u.host.speed = s.host.speed)
    (h : s.host.counter + max 1 s.host.speed.natAbs < 100000) :
    handled d u = u.withHost { u.host with counter := pacedCounter u.host } := by
  refine handled_normal_early d hm ?_
  rw [hpaced.1, hpaced.2]
  exact h

theorem handled_inv (d : HostDraw) {s : State} (hs : s.Inv) (hn : 3 ≤ s.cfg.nLeds) : (handled d s).Inv :=
  (controlSteps_of_handlerPhase (handlerPhase_eq d hs.2.2.2.2 fun _ => hn)).inv hs

/-- No interrupt stands in the next tick, known from the races left. -/
theorem undisturbed_of_races_eq {s u : State} (h : u.races = s.races) (hs : s.undisturbed) : u.undisturbed := by
  have hrace : u.race = s.race := by rw [State.race, h, State.race]
  exact hrace.trans hs

/-! ### One click (R204) -/

theorem toggled_dark {s : State} (hlen : s.disp.intensity.length = s.cfg.nLeds) {pos : Nat} (hpos : pos < s.cfg.nLeds) :
    (toggled s).disp.intensity.getD pos 0 = 0 := by
  rw [toggled, State.withDisp_disp, painted_intensity (inTable_clearAll _) hlen, levelAfter_clearAll, if_pos hpos]

/-- A tick that began in `s` with one click, by which of the click, the handler and the command have been. -/
structure OneClick (s : State) (click handler command : Bool) (u : State) : Prop where
  inv : u.Inv
  cfg : u.cfg = s.cfg
  scr : u.scr = s.scr
  races : command = false → u.races = s.races
  clicks : u.dec.clicks = if click = true then 0 else 1
  mode : u.host.mode = if click = true then s.host.mode.other else s.host.mode
  paced : handler = false → u.host.counter = s.host.counter ∧ u.host.speed = s.host.speed
  dark : click = true → s.host.mode = .adjust → s.host.counter + max 1 s.host.speed.natAbs < 100000 →
    ∀ pos, pos < s.cfg.nLeds → u.disp.intensity.getD pos 0 = 0

theorem OneClick.clickPhase (d : HostDraw) {s u : State} {handler command : Bool} (h : OneClick s false handler command u) :
    ∃ v, clickPhase d u = .next v ∧ OneClick s true handler command v := by
  have hphase := clickPhase_of_one_click d h.clicks
  have ⟨_, _, ⟨⟨hlen, _⟩, _⟩, _, _⟩ := h.inv
  refine ⟨_, hphase, (controlSteps_of_clickPhase hphase).inv h.inv, h.cfg, h.scr, h.races, rfl, congrArg Mode.other h.mode,
    h.paced, fun _ _ _ pos hpos => ?_⟩
  exact toggled_dark (s := drainClicks u) hlen (h.cfg ▸ hpos)

theorem OneClick.handlerPhase (d : HostDraw) {s u : State} {click command : Bool} (hn : 3 ≤ s.cfg.nLeds)
    (h : OneClick s click false command u) : ∃ v, handlerPhase d u = .next v ∧ OneClick s click true command v := by
  have hn' : 3 ≤ u.cfg.nLeds := by rw [h.cfg]; exact hn
  have hframe := handled_frame d u
  refine ⟨_, handlerPhase_eq d h.inv.2.2.2.2 fun _ => hn', handled_inv d h.inv hn', hframe.cfg.trans h.cfg,
    hframe.scr.trans h.scr, fun hz => hframe.races.trans (h.races hz), hframe.clicks.trans h.clicks,
    hframe.mode.trans h.mode, fun hy => (by cases hy), fun hclick hadjust hearly pos hpos => ?_⟩
  have hnormal : u.host.mode = .normal := by rw [h.mode, hclick, hadjust]; rfl
  rw [handled_early_of_paced d hnormal (h.paced rfl) hearly]
  exact h.dark hclick hadjust hearly pos hpos

theorem OneClick.commandPhase (d : HostDraw) {s u : State} {click handler : Bool} (hrace : s.undisturbed)
    (hcommand : s.noCommand) (h : OneClick s click handler false u) :
    ∃ v, commandPhase d u = .next v ∧ OneClick s click handler true v := by
  obtain ⟨shown, hphase⟩ := commandPhase_noCommand d (undisturbed_of_races_eq (h.races rfl) hrace)
    (by rw [State.noCommand, h.scr]; exact hcommand) h.inv.2.2.2.1
  exact ⟨_, hphase, (subSteps_of_commandPhase hphase).inv h.inv, h.cfg, h.scr, fun hz => (by cases hz), h.clicks, h.mode,
    h.paced, h.dark⟩

/-- Settles O59: the click phase is the only one that changes the mode. -/
theorem clickTogglesTheModeOnce : Obligations.ClickTogglesTheModeOnce := by
  intro s hs hn hclicks hrace hcommand
  obtain ⟨t, ht, h⟩ := ctrlTick_completes (P := OneClick s)
    (fun _ _ _ hu => hu.clickPhase _) (fun _ _ _ hu => hu.handlerPhase _ hn)
    (fun _ _ _ hu => hu.commandPhase _ hrace hcommand)
    ⟨(ControlStep.draws _).inv hs, rfl, rfl, fun _ => rfl, hclicks, rfl, fun _ => ⟨rfl, rfl⟩, fun hx => (by cases hx)⟩
  refine ⟨t, ht, h.clicks, ?_, h.dark rfl⟩
  rw [h.mode]
  exact Mode.other_ne _

/-! ### A command seen for the first time (R209) -/

/-- The bytes of the command in the scratch. -/
def State.commandBytes (s : State) : List Byte := s.scr.buffer.toList.take s.scr.size

/-- A tick that began in `s` with no click, by whether the command was read. -/
structure CommandPending (s : State) (command : Bool) (u : State) : Prop where
  inv : u.Inv
  cfg : u.cfg = s.cfg
  clicks : u.dec.clicks = 0
  waiting : command = false → u.scr = s.scr ∧ u.races = s.races ∧ u.host.lastCommand = s.host.lastCommand

theorem CommandPending.commandPhase_eq (d : HostDraw) {s u : State} (hrace : s.undisturbed) (hdiffers : s.commandDiffers)
    (h : CommandPending s false u) :
    commandPhase d u = dispatchCommand true (s.scr.latchedAddress, s.commandBytes) (commandNoted u) := by
  obtain ⟨hscr, hraces, hlast⟩ := h.waiting rfl
  have haccepted := commandAccepted_of_differs d hdiffers
  rw [← hlast, ← hscr] at haccepted
  rw [commandPhase_undisturbed d (undisturbed_of_races_eq hraces hrace), haccepted, hscr, State.commandBytes]

/-- A tick that reads a command for the first time, from what its parts do to a predicate `Q` of how far it is: taking no
click, the handler, and the command's dispatch. -/
theorem freshCommand_completes {Q : Bool → Bool → State → Prop} {s : State} (hs : s.Inv) (hn : 3 ≤ s.cfg.nLeds)
    (hclicks : s.dec.clicks = 0) (hrace : s.undisturbed) (hdiffers : s.commandDiffers)
    (hdrain : ∀ y z u, u.dec.clicks = 0 → Q y z u → Q y z (drainClicks u))
    (hhandler : ∀ z u, u.Inv → Q false z u → Q true z (handled (drawAt s.draws) u))
    (hcommand : ∀ y u, u.cfg = s.cfg → u.dec.clicks = 0 → Q y false u → ∃ v,
      dispatchCommand true (s.scr.latchedAddress, s.commandBytes) (commandNoted u) = .next v ∧ v.dec = u.dec ∧ Q y true v)
    (hstart : Q false false (s.withDraws (s.draws + 1))) : ∃ t, exec .ctrlTick s = .next t ∧ Q true true t := by
  have htick := ctrlTick_completes (s := s) (P := fun _ y z u => CommandPending s z u ∧ Q y z u) ?_ ?_ ?_
    ⟨⟨(ControlStep.draws _).inv hs, rfl, hclicks, fun _ => ⟨rfl, rfl, rfl⟩⟩, hstart⟩
  · exact htick.imp fun t ht => ⟨ht.1, ht.2.2⟩
  · rintro y z u ⟨hpending, hq⟩
    exact ⟨_, clickPhase_of_no_click _ hpending.clicks, ⟨ControlStep.drainClicks.inv hpending.inv, hpending.cfg, rfl,
      hpending.waiting⟩, hdrain y z u hpending.clicks hq⟩
  · rintro x z u ⟨hpending, hq⟩
    have hn' : 3 ≤ u.cfg.nLeds := by rw [hpending.cfg]; exact hn
    have hframe := handled_frame (drawAt s.draws) u
    refine ⟨_, handlerPhase_eq _ hpending.inv.2.2.2.2 fun _ => hn', ⟨handled_inv _ hpending.inv hn',
      hframe.cfg.trans hpending.cfg, hframe.clicks.trans hpending.clicks, fun hz => ?_⟩, hhandler z u hpending.inv hq⟩
    obtain ⟨hscr, hraces, hlast⟩ := hpending.waiting hz
    exact ⟨hframe.scr.trans hscr, hframe.races.trans hraces, hframe.lastCommand.trans hlast⟩
  · rintro x y u ⟨hpending, hq⟩
    obtain ⟨v, hv, hdec, hq'⟩ := hcommand y u hpending.cfg hpending.clicks hq
    have hphase := (hpending.commandPhase_eq (drawAt s.draws) hrace hdiffers).trans hv
    have hsteps := subSteps_of_commandPhase hphase
    exact ⟨v, hphase, ⟨hsteps.inv hpending.inv, hsteps.cfg_eq.trans hpending.cfg,
      (congrArg Decoder.clicks hdec).trans hpending.clicks, fun hz => (by cases hz)⟩, hq'⟩

theorem commandBytes_length {s : State} (hs : s.ScratchOk) : s.commandBytes.length = s.scr.size := by
  obtain ⟨-, hsize⟩ := hs
  rw [State.commandBytes, List.length_take, Vector.length_toList, Nat.min_eq_left hsize]

/-- The payload of a four-byte command is the word of the first four buffer bytes. -/
theorem payload_commandBytes {s : State} (hsize : s.scr.size = 4) :
    payload s.commandBytes =
      (s.scr.buffer[0] ++ s.scr.buffer[1] ++ s.scr.buffer[2] ++ s.scr.buffer[3]).toInt := by
  have hstored : s.scr.buffer.toList.take 4 = s.commandBytes.take 20 := by
    rw [State.commandBytes, hsize, List.take_take]
    rfl
  exact congrArg BitVec.toInt (loadBe32_of_stored hstored (le_refl 4)).symm

/-- `value` with four bytes, read in NORMAL mode before or after the handler. -/
structure InjectedNormal (s : State) (v : Int) (handler command : Bool) (u : State) : Prop where
  mode : u.host.mode = .normal
  dec : u.dec = s.dec
  paced : handler = false → u.host.counter = s.host.counter ∧ u.host.speed = s.host.speed
  injected : u.host.injected = s.host.injected + if command = true then v else 0

/-- `value` with four bytes, read in ADJUST mode before or after the handler. -/
structure InjectedAdjust (s : State) (v : Int) (handler command : Bool) (u : State) : Prop where
  mode : u.host.mode = .adjust
  increment : handler = false → u.dec.increment = s.dec.increment
  kind : (u.host.animationType : Int) = (s.host.animationType + (if handler = true then s.dec.increment.toInt else 0) +
    (if command = true then v else 0)) % 3

/-- `value` with another number of bytes, read before or after the handler. -/
structure Malformed (s : State) (handler command : Bool) (u : State) : Prop where
  mode : u.host.mode = s.host.mode
  injected : u.host.injected = s.host.injected
  paced : handler = false → u.host.counter = s.host.counter ∧ u.host.speed = s.host.speed
  shown : ∃ shown, u.trace = s.trace ++ shown ∧ (command = true → Output.condition .malformedCommand ∈ shown)

section Fresh

variable {s : State} (hs : s.Inv) (hn : 3 ≤ s.cfg.nLeds) (hclicks : s.dec.clicks = 0) (hrace : s.undisturbed)
  (hdiffers : s.commandDiffers)
include hs hn hclicks hrace hdiffers

theorem freshValue_normal (hearly : s.host.counter + max 1 s.host.speed.natAbs < 100000)
    (haddr : s.scr.latchedAddress = 0) (hsize : s.scr.size = 4) (hmode : s.host.mode = .normal) :
    ∃ t, exec .ctrlTick s = .next t ∧ InjectedNormal s (payload s.commandBytes) true true t := by
  have hlength := (commandBytes_length hs.2.2.2.1).trans hsize
  refine freshCommand_completes (Q := InjectedNormal s (payload s.commandBytes)) hs hn hclicks hrace hdiffers
    (fun y z u hu h => ?_) (fun z u _ h => ?_) (fun y u _ _ h => ?_)
    ⟨hmode, rfl, fun _ => ⟨rfl, rfl⟩, (Int.add_zero _).symm⟩
  · have hdec : ({ u.dec with clicks := 0 } : Decoder) = u.dec := by rw [← hu]
    exact ⟨h.mode, hdec.trans h.dec, h.paced, h.injected⟩
  · rw [handled_early_of_paced _ h.mode (h.paced rfl) hearly]
    exact ⟨h.mode, h.dec, fun hy => (by cases hy), h.injected⟩
  · have hnormal : (commandNoted u).host.mode = .normal := h.mode
    rw [haddr, dispatchCommand_value hlength, inject, hnormal]
    refine ⟨_, rfl, rfl, h.mode, h.dec, h.paced, ?_⟩
    exact congrArg (· + payload s.commandBytes) (h.injected.trans (Int.add_zero _))

theorem freshValue_adjust (haddr : s.scr.latchedAddress = 0) (hsize : s.scr.size = 4) (hmode : s.host.mode = .adjust) :
    ∃ t, exec .ctrlTick s = .next t ∧ InjectedAdjust s (payload s.commandBytes) true true t := by
  have hlength := (commandBytes_length hs.2.2.2.1).trans hsize
  obtain ⟨-, hkind, -⟩ := hs.2.2.2.2
  have hlt : s.host.animationType < 3 := hkind
  have hstart : (s.host.animationType : Int) = (s.host.animationType + 0 + 0) % 3 := by omega
  have hcycle (x v : Int) : ((wrapIndex (x + v) Config.nAnim : Nat) : Int) = (x + v) % 3 := wrapIndex_cast _ (by decide)
  refine freshCommand_completes (Q := InjectedAdjust s (payload s.commandBytes)) hs hn hclicks hrace hdiffers
    (fun y z u _ h => ⟨h.mode, h.increment, h.kind⟩) (fun z u _ h => ?_) (fun y u hcfg _ h => ?_)
    ⟨hmode, fun _ => rfl, hstart⟩
  · rw [handled_adjust _ h.mode]
    refine ⟨h.mode, fun hy => (by cases hy), (hcycle _ _).trans ?_⟩
    have hkind' := h.kind
    have hinc : (drainIncrement u).host = u.host := rfl
    rw [hinc, hkind', h.increment rfl]
    simp only [if_true, Bool.false_eq_true, if_false]
    omega
  · have hadjust : (commandNoted u).host.mode = .adjust := h.mode
    have hn' : 3 ≤ (commandNoted u).cfg.nLeds := by rw [← hcfg] at hn; exact hn
    rw [haddr, dispatchCommand_value hlength, inject, hadjust]
    refine ⟨_, adjustBy_eq _ hn', rfl, h.mode, h.increment, (hcycle _ _).trans ?_⟩
    have hkind' : ((commandNoted u).host.animationType : Int) = _ := h.kind
    rw [hkind']
    simp only [if_true, Bool.false_eq_true, if_false]
    omega

theorem freshValue_malformed (hearly : s.host.counter + max 1 s.host.speed.natAbs < 100000)
    (haddr : s.scr.latchedAddress = 0) (hsize : s.scr.size ≠ 4) :
    ∃ t, exec .ctrlTick s = .next t ∧ Malformed s true true t := by
  have hlength : s.commandBytes.length ≠ 4 := by rw [commandBytes_length hs.2.2.2.1]; exact hsize
  refine freshCommand_completes (Q := Malformed s) hs hn hclicks hrace hdiffers
    (fun y z u _ h => ?_) (fun z u _ h => ?_) (fun y u _ _ h => ?_)
    ⟨rfl, rfl, fun _ => ⟨rfl, rfl⟩, [], (List.append_nil _).symm, fun hz => (by cases hz)⟩
  · obtain ⟨shown, htrace, hmem⟩ := h.shown
    exact ⟨h.mode, h.injected, h.paced, shown ++ [.clicks u.dec.clicks],
      (congrArg (· ++ _) htrace).trans (List.append_assoc ..), fun hz => List.mem_append_left _ (hmem hz)⟩
  · obtain ⟨shown, htrace, hmem⟩ := h.shown
    cases hm : u.host.mode with
    | normal =>
      rw [handled_early_of_paced _ hm (h.paced rfl) hearly]
      exact ⟨h.mode, h.injected, fun hy => (by cases hy), shown, htrace, hmem⟩
    | adjust =>
      rw [handled_adjust _ hm]
      exact ⟨h.mode, h.injected, fun hy => (by cases hy), shown ++ [.increment u.dec.increment],
        (congrArg (· ++ _) htrace).trans (List.append_assoc ..), fun hz => List.mem_append_left _ (hmem hz)⟩
  · obtain ⟨shown, htrace, -⟩ := h.shown
    rw [haddr, dispatchCommand_malformed _ hlength]
    refine ⟨_, rfl, rfl, h.mode, h.injected, h.paced,
      shown ++ [.command u.scr.latchedAddress u.commandBytes, .condition .malformedCommand], ?_, fun _ => by simp⟩
    simp [State.raise, State.emit, commandNoted, State.commandBytes, htrace]

theorem freshClick (haddr : s.scr.latchedAddress = 1) :
    ∃ t, exec .ctrlTick s = .next t ∧ t.host.mode = s.host.mode.other := by
  refine freshCommand_completes (Q := fun _ z u => u.host.mode = if z = true then s.host.mode.other else s.host.mode)
    hs hn hclicks hrace hdiffers (fun _ _ _ _ h => h) (fun z u _ h => (handled_frame _ u).mode.trans h)
    (fun y u _ _ h => ?_) rfl
  rw [haddr, dispatchCommand_click]
  exact ⟨_, rfl, rfl, congrArg Mode.other h⟩

end Fresh

/-- Settles O60: one tick, and its effect by the selector, the size and the mode. -/
theorem firstSeenCommandIsDispatched : Obligations.FirstSeenCommandIsDispatched := by
  intro s hs hn hclicks hrace hdiffers hearly
  have hrange : s.raceInRange := fun a d hmem => by rw [hrace] at hmem; cases hmem
  obtain ⟨t, ht⟩ := ctrlTickCompletes s hs hn hrange
  have hsame {u : State} (hu : exec .ctrlTick s = .next u) : u = t := Host.Outcome.next.inj (hu.symm.trans ht)
  refine ⟨t, ht, fun haddr hsize hmode => ?_, fun haddr hsize hmode => ?_, fun haddr hsize => ?_, fun haddr => ?_⟩
  · obtain ⟨u, hu, h⟩ := freshValue_normal hs hn hclicks hrace hdiffers hearly haddr hsize hmode
    obtain rfl := hsame hu
    exact ⟨h.mode, payload_commandBytes hsize ▸ h.injected, h.dec⟩
  · obtain ⟨u, hu, h⟩ := freshValue_adjust hs hn hclicks hrace hdiffers haddr hsize hmode
    obtain rfl := hsame hu
    exact ⟨h.mode, payload_commandBytes hsize ▸ h.kind⟩
  · obtain ⟨u, hu, h⟩ := freshValue_malformed hs hn hclicks hrace hdiffers hearly haddr hsize
    obtain rfl := hsame hu
    obtain ⟨shown, htrace, hmem⟩ := h.shown
    refine ⟨h.mode, h.injected, ?_⟩
    rw [htrace, List.drop_left]
    exact hmem rfl
  · obtain ⟨u, hu, h⟩ := freshClick hs hn hclicks hrace hdiffers haddr
    obtain rfl := hsame hu
    rw [h]
    exact Mode.other_ne _

end Sys2Proof.Machine
end
